-- ==== Sys2Proof/Word.lean ====
section
/-! DEFINITION. The byte that crosses the three ports and fills the page cells. -/

namespace Sys2Proof

/-- One byte: a port transfer, a cell code, an operand (11, "Numbers in a byte are unsigned binary"). -/
abbrev Byte := BitVec 8

end Sys2Proof
end

