-- ==== Sys2Proof/Syntax.lean ====
section
/-! DEFINITION. The commands: one constructor for each row of spec/opcode_table.json.

A command is what crosses a port as one event: a run of bytes on the stream port or the input port, a byte taken by a
partner, a request on the display port, or an event of a timer, of the template array or of the reset line. -/

namespace Sys2Proof

/-- A page number 0–5 (R1). -/
abbrev PageNum := Fin 6

/-- How an erase attempt ends, as the array reports it (R170, R172). -/
inductive Ending where
  | pass
  | fail
  | stopped
  deriving DecidableEq, Repr

/-- The fifteen operand bytes of DEFINE, in order; the bound is four of them, high byte first (11.2, R182). -/
structure DefineOperands where
  number : Byte
  length : Byte
  kind : Byte
  cls : Byte
  source : Byte
  flags : Byte
  check : Byte
  scale : Byte
  bound : BitVec 32
  presentation : Byte
  exitOption : Byte
  continuation : Byte
  deriving DecidableEq, Repr

/-- The FC412's commands. Header commands carry the bytes from the page byte on, since the command fixes the kind byte;
order commands carry the operand bytes after the order code. -/
inductive Instr where
  /-- RESET_LINE (R3) -/
  | resetLine
  /-- STREAM_RESET (R157) -/
  | streamReset
  /-- START: the byte 02h (R121) -/
  | start
  /-- STRAY_BYTE: a byte taken between transactions (R121) -/
  | strayByte (b : Byte)
  /-- SKIPPED_BYTE: a byte taken in SKIPPING (R128) -/
  | skippedByte (b : Byte)
  /-- LOAD header (R9) -/
  | load (page tag : Byte)
  /-- AMEND header (R10) -/
  | amend (page tag : Byte)
  /-- POST header (R11) -/
  | post (page tag : Byte)
  /-- REOPEN header (R13) -/
  | reopen (page tag serial : Byte)
  /-- CLOSE header (R14) -/
  | close (page tag serial : Byte)
  /-- RESTART header (R141) -/
  | restart (page tag : Byte)
  /-- SETUP header (R140) -/
  | setup (page tag replyLimit confirmWindow typeAhead : Byte)
  /-- QUERY header (R142) -/
  | query (page tag : Byte)
  /-- STORE header (R161) -/
  | store (page tag slot : Byte) (label : List Byte)
  /-- ERASE header (R168) -/
  | erase (page tag count : Byte) (slots : List Byte)
  /-- PAUSE header (R171) -/
  | pause (page tag : Byte)
  /-- RESUME header (R173) -/
  | resume (page tag : Byte)
  /-- SETPOS order (R131) -/
  | setpos (row column : Byte)
  /-- TEXT order (R132) -/
  | text (n : Byte) (bytes : List Byte)
  /-- REPEAT order (R133) -/
  | repeatChar (character : Byte) (count : BitVec 16)
  /-- CLEAR order (R133) -/
  | clear (count : BitVec 16)
  /-- DEFINE order (R30) -/
  | define (d : DefineOperands)
  /-- DROP order (R35) -/
  | drop (number : Byte)
  /-- CURSOR order (R137) -/
  | cursor (row column : Byte)
  /-- MESSAGE order (R138) -/
  | message (n : Byte) (bytes : List Byte)
  /-- MARK order (R40) -/
  | mark (number code : Byte)
  /-- UNMODIFY order (R39) -/
  | unmodify (number : Byte)
  /-- CHAIN order (R117) -/
  | chain (id action count follow m : Byte) (members : List Byte)
  /-- UNCHAIN order (R118) -/
  | unchain (id : Byte)
  /-- SELECT order (R118) -/
  | select (id : Byte)
  /-- RECALL order (R165) -/
  | recall (slot : Byte)
  /-- BAD_ORDER_CODE: a byte in the order-code position that is no order the kind allows (R124) -/
  | badOrderCode (b : Byte)
  /-- ABORTED: the byte 02h in the order-code position (R124) -/
  | aborted
  /-- END: the byte 03h in the order-code position (R126) -/
  | endTransaction
  /-- REPORT_BYTE_TAKEN (R146) -/
  | reportByteTaken
  /-- LEFT key (R47) -/
  | left
  /-- RIGHT key (R47) -/
  | right
  /-- UP key (R47) -/
  | up
  /-- DOWN key (R47) -/
  | down
  /-- TAB key (R48) -/
  | tab
  /-- BACKTAB key (R49) -/
  | backtab
  /-- HOME key (R50) -/
  | home
  /-- NEWLINE key (R50) -/
  | newline
  /-- INSERT key (R64) -/
  | insert
  /-- CHARACTER_KEY: a printable code (R56) -/
  | characterKey (code : Byte)
  /-- DELETE key (R60) -/
  | delete
  /-- BACKSPACE key (R61) -/
  | backspace
  /-- ERASE_EOF key (R62) -/
  | eraseEof
  /-- CLEAR_FIELD key (R63) -/
  | clearField
  /-- RESET key (R66) -/
  | reset
  /-- ATTN key (R68) -/
  | attn
  /-- PARK key (R7) -/
  | park
  /-- ENTER key (R69) -/
  | enter
  /-- F1_TO_F12: the key F(k+1) (R69) -/
  | functionKey (k : Fin 12)
  /-- UNKNOWN_KEY: a code outside the key table (R44) -/
  | unknownKey (code : Byte)
  /-- SCAN_FRAME: a length byte and the frame's characters, after the marker (R103) -/
  | scanFrame (length : Byte) (characters : List Byte)
  /-- SCAN_ANSWER_BYTE_TAKEN (R184) -/
  | scanAnswerByteTaken
  /-- ROW_REQUEST (R176) -/
  | rowRequest (row : Byte)
  /-- CURSOR_REQUEST (R178) -/
  | cursorRequest
  /-- REPLY_TIMER_EXPIRY of a page (R22) -/
  | replyTimerExpiry (page : PageNum)
  /-- CONFIRM_WINDOW_EXPIRY (R114) -/
  | confirmWindowExpiry
  /-- GATHERING_WINDOW_EXPIRY (R169) -/
  | gatheringWindowExpiry
  /-- ATTEMPT_END: the running attempt ends in pass or fail (R170) -/
  | attemptEnd (ending : Ending)
  /-- ATTEMPT_STOPPED: the running attempt ends while the unit is PAUSING (R172) -/
  | attemptStopped (ending : Ending)
  /-- KIND_NAMES_NO_KIND: a header whose kind byte names no kind (R123) -/
  | kindNamesNoKind (kind page tag : Byte)
  deriving DecidableEq, Repr

end Sys2Proof
end

