-- ==== Sys2Proof/Config.lean ====
section
/-! DEFINITION. What the reference leaves to chance: the free values. -/

namespace Sys2Proof.Config

/-- Which of several expiries that stand due together is taken first, at the n-th such choice. R5 says where the pages
come to stand once the order is given; no rule gives the order. A free value, with no body (log entry 6). -/
opaque expiryChoice : Nat → Nat

end Sys2Proof.Config
end

