-- ==== Sys2Proof/Machine/State.lean ====
section
/-! DEFINITION. The state of the FC412, block by block (00, "Functional blocks"), and its value after the reset line. -/

namespace Sys2Proof.Machine

/-! ## Names -/

/-- A template slot number 0–23 (R159). -/
abbrev SlotNum := Fin 24

/-- A chain id 0–3 (R116). -/
abbrev ChainId := Fin 4

/-- Page states (R1, section 1.2). -/
inductive PageState where
  | free
  | loading
  | ready
  | active
  | sending
  | awaiting
  deriving DecidableEq, Repr

/-- Field intensities (R26). -/
inductive Intensity where
  | normal
  | bright
  | hidden
  deriving DecidableEq, Repr

/-- Classes of an ENTRY field (R29). -/
inductive FieldClass where
  | alpha
  | code
  | digits
  | amount
  deriving DecidableEq, Repr

/-- The devices that may fill an ENTRY field (R27). -/
inductive Source where
  | key
  | scan
  | both
  deriving DecidableEq, Repr

/-- Check kinds (R27). -/
inductive CheckKind where
  | noCheck
  | m10
  | m11
  deriving DecidableEq, Repr

/-- NONE, ATTN or SEND: an exit option (R27) or a chain action (R116). -/
inductive Action where
  | nothing
  | attn
  | send
  deriving DecidableEq, Repr

/-- The codes with which a page enters error hold (R65). -/
inductive ErrorCode where
  | eProt
  | eSrc
  | eClass
  | eOver
  | eForm
  | eScale
  | eRange
  | eCheck
  | eFill
  | eMand
  deriving DecidableEq, Repr

/-- The codes a page's last notice code can hold (R43, R180). -/
inductive Notice where
  | error (code : ErrorCode)
  | sAgain
  | sRescan
  | sReject
  | eLink
  | eFull
  | eKey
  | noNext
  | wait
  deriving DecidableEq, Repr

/-- The codes the no-page notice can hold (R43, R46). -/
inductive NoPageNotice where
  | eNoForm
  | eKey
  deriving DecidableEq, Repr

/-! ## Fields, chains and pages -/

/-- What a record of kind ENTRY holds besides R26's items: definition items (R27) and per-field state (R28). -/
structure EntryItems where
  cls : FieldClass
  source : Source
  mandatory : Bool
  mustFill : Bool
  autoSkip : Bool
  doubleRead : Bool
  /-- AMOUNT only; clear for the other classes (log entry 16). -/
  signed : Bool
  /-- AMOUNT only; clear for the other classes (log entry 16). -/
  zeroFill : Bool
  check : CheckKind
  /-- AMOUNT only; 0 for the other classes (log entry 16). -/
  scale : Nat
  /-- AMOUNT only; 0 for the other classes (log entry 16). -/
  bound : Nat
  exitOption : Action
  continuation : Option Nat
  touched : Bool
  checkError : Option ErrorCode
  hostMark : Option Nat
  deriving DecidableEq, Repr

/-- A field record in use (R26). `entry` is absent for a PROTECTED field, which holds none of those items (R27). -/
structure Field where
  number : Nat
  start : Nat
  length : Nat
  intensity : Intensity
  blink : Bool
  modified : Bool
  entry : Option EntryItems
  deriving DecidableEq, Repr

/-- A chain record (R116); its id is its place in the chain table. -/
structure Chain where
  action : Action
  count : Nat
  remaining : Nat
  follow : Bool
  members : List Nat
  index : Nat
  deriving DecidableEq, Repr

/-- A page's reply timer (R1, R20). It is suspended while the page's transaction-in-flight mark is set (R21). -/
inductive ReplyTimer where
  | absent
  | notRunning
  | remaining (ms : Nat)
  deriving DecidableEq, Repr

/-- A page's attention pending set (R144, R151). -/
structure AttentionSet where
  key : Bool
  chains : Vector Bool 4
  exit : Option Nat
  deriving DecidableEq, Repr

/-- The cells of one page in canonical form: positions strictly rising, below 1920, and no listed cell 00h. -/
abbrev Cells := List Host.Cell

/-- A page: its context record (R1), its field list (R32) and its cells (Page Store). -/
structure Page where
  state : PageState
  cursor : Nat
  insert : Bool
  hold : Option ErrorCode
  current : Option ChainId
  chains : Vector (Option Chain) 4
  message : List Byte
  serial : Byte
  overdue : Bool
  unsent : Bool
  timer : ReplyTimer
  inFlight : Bool
  attention : AttentionSet
  notice : Option Notice
  fields : List Field
  cells : Cells
  deriving DecidableEq, Repr

/-- The empty attention pending set. -/
def AttentionSet.empty : AttentionSet := { key := false, chains := Vector.replicate 4 false, exit := none }

/-- The value column of R1, with null cells: a FREE page with serial 0. -/
def Page.blank : Page where
  state := .free
  cursor := 0
  insert := false
  hold := none
  current := none
  chains := Vector.replicate 4 none
  message := []
  serial := 0#8
  overdue := false
  unsent := false
  timer := .absent
  inFlight := false
  attention := .empty
  notice := none
  fields := []
  cells := []

/-! ## Reports -/

/-- Statuses of a completion report (11.3). -/
inductive Status where
  | ok
  | someSkipped
  | badPage
  | state
  | stale
  | late
  | busy
  | badOrder
  | badPos
  | badField
  | pool
  | badSlot
  | slotBusy
  | notBlank
  | storeFull
  | aborted
  deriving DecidableEq, Repr

/-- What an attention report is raised for (R150). -/
inductive Cause where
  | key
  | chain (id : ChainId)
  | exit (field : Nat)
  deriving DecidableEq, Repr

/-- The outcome of a slot in an erase result (R154). -/
inductive EraseOutcome where
  | blank
  | failed
  deriving DecidableEq, Repr

/-- Slot states that survive power loss (R159). -/
inductive KeptState where
  | blank
  | filled
  | failed
  deriving DecidableEq, Repr

/-- Slot states (R159, R160); QUEUED carries the slot's prior state. -/
inductive SlotState where
  | blank
  | recording
  | filled
  | failed
  | queued (prior : KeptState)
  | erasing
  | held
  deriving DecidableEq, Repr

/-- States of the erase unit (R167). -/
inductive UnitState where
  | idle
  | gathering
  | erasing
  | pausing
  | paused
  deriving DecidableEq, Repr

/-- One field of an entry report as fixed at the send: its number, its first cell and its content length (R147). -/
structure SentField where
  number : Nat
  start : Nat
  length : Nat
  deriving DecidableEq, Repr

/-- The fixed part of an entry report (R147). -/
structure EntryReport where
  page : PageNum
  serial : Byte
  sendKey : Nat
  row : Nat
  column : Nat
  fields : List SentField
  deriving DecidableEq, Repr

/-- What a STATUS report says of one page (R153). -/
structure PageStatus where
  state : PageState
  fieldCount : Nat
  serial : Byte
  overdue : Bool
  unsent : Bool
  deriving DecidableEq, Repr

/-- What a STATUS report says of one slot (R153). -/
structure SlotStatus where
  state : SlotState
  used : Nat
  label : List Byte
  deriving DecidableEq, Repr

/-- The body of a STATUS report (R153). -/
structure StatusReport where
  pages : List PageStatus
  ready : List PageNum
  active : Option PageNum
  freeRecords : Nat
  reports : Nat
  unit : UnitState
  slots : List SlotStatus
  deriving DecidableEq, Repr

/-- A report of one of the six kinds (R145). -/
inductive Report where
  | entry (e : EntryReport)
  | attention (page : PageNum) (cause : Cause) (serial : Byte)
  | completion (tag : Byte) (status : Status) (detail : Nat)
  | status (body : StatusReport)
  | eraseDone (pairs : List (SlotNum × EraseOutcome))
  | start
  deriving DecidableEq, Repr

/-! ## The blocks -/

/-- The frame in progress of the Key Input Unit (R88, R89). -/
inductive FrameProgress where
  | absent
  | lengthAwaited
  | counting (n : Nat)
  deriving DecidableEq, Repr

/-- The Key Input Unit (R88). -/
structure KeyInput where
  queue : List Byte
  typeAhead : Bool
  frame : FrameProgress
  deriving DecidableEq, Repr

/-- A confirm-pending record (R112): the frame's characters as received and the target, a field of the active page. -/
structure ConfirmRecord where
  characters : List Byte
  page : PageNum
  field : Nat
  deriving DecidableEq, Repr

/-- The frame being received (R100): its length byte and the characters kept so far. -/
structure Receiving where
  length : Byte
  characters : List Byte
  deriving DecidableEq, Repr

/-- The Scan Unit (R100), with the answer bytes the scanner decoder has not yet taken (R184). -/
structure ScanUnit where
  buffer : Option (List Byte)
  confirm : Option ConfirmRecord
  window : Option Nat
  receiving : Option Receiving
  answers : List Byte
  deriving DecidableEq, Repr

/-- Interpreter states (R120). -/
inductive InterpState where
  | between
  | header
  | orders
  | skipping
  deriving DecidableEq, Repr

/-- The transaction record (R120): the header's bytes as taken (kind, page, tag, header operands), the bytes taken so far
of the order being read, and the record's counters. -/
structure Transaction where
  header : List Byte
  order : List Byte
  index : Nat
  writePos : Nat
  status : Status
  firstSkipped : Option Nat
  deriving DecidableEq, Repr

/-- The Order Interpreter (R120); the type-ahead setting is the Key Input Unit's (R88). -/
structure Interpreter where
  state : InterpState
  txn : Option Transaction
  stalled : Option Report
  replyLimit : Nat
  confirmWindow : Nat
  deriving DecidableEq, Repr

/-- The Report Unit (R144); the attention pending sets are in the pages, the stalled report in the interpreter. -/
structure ReportUnit where
  queue : List Report
  taken : Nat
  padding : Nat
  notice : Option (List (SlotNum × EraseOutcome))
  deriving DecidableEq, Repr

/-- A template slot (R159). Each recorded order is its code and operand bytes. -/
structure Slot where
  state : SlotState
  content : List (List Byte)
  used : Nat
  label : List Byte
  deriving DecidableEq, Repr

/-- The erase unit (R167). -/
structure EraseUnit where
  state : UnitState
  batch : List SlotNum
  window : Option Nat
  work : Option SlotNum
  attempts : Nat
  result : List (SlotNum × EraseOutcome)
  deriving DecidableEq, Repr

/-- The Template Store (R159, R167). -/
structure TemplateStore where
  slots : Vector Slot 24
  unit : EraseUnit
  deriving DecidableEq, Repr

/-- A presented cell: a character and its attributes (R177). -/
structure Shown where
  character : Byte
  underline : Bool
  bright : Bool
  blink : Bool
  reverse : Bool
  deriving DecidableEq, Repr

/-- The cursor's shape (R178). -/
inductive CursorShape where
  | block
  | bar
  deriving DecidableEq, Repr

/-- The cursor as the display port gives it (R178). -/
structure ShownCursor where
  row : Nat
  column : Nat
  shape : CursorShape
  deriving DecidableEq, Repr

/-- An answer to the video generator (R176). -/
inductive DisplayAnswer where
  | row (cells : List Shown)
  | cursor (at_ : Option ShownCursor)
  deriving DecidableEq, Repr

/-- The MODEL's own: what crossed each upstream port at its last transfer (log entry 9). -/
structure PortOutputs where
  stream : Option Byte
  input : Option Byte
  display : Option DisplayAnswer
  deriving DecidableEq, Repr

/-- The state of the FC412. -/
structure State where
  pages : Vector Page 6
  ready : List PageNum
  active : Option PageNum
  noPage : Option NoPageNotice
  keys : KeyInput
  scan : ScanUnit
  interp : Interpreter
  reports : ReportUnit
  store : TemplateStore
  outputs : PortOutputs
  /-- The MODEL's own: free choices made so far among expiries due together (log entry 6). -/
  choices : Nat
  /-- The MODEL's own: the commands that wait, first in first out (log entry 3). -/
  pending : List Instr
  deriving DecidableEq, Repr

/-- No meaning stops with a fault: the spec answers every wrong byte, key, frame and order (R44, R65, R101, R123, R127).
The type has no constructor. Safe: nothing raises it. -/
inductive Fault
  deriving DecidableEq, Repr

/-- The one refusal the host fixes. No arm of exec answers with it in this model. -/
inductive Refusal where
  /-- A command whose meaning is not written yet: exec's arm would raise it. Safe. No arm does. -/
  | notModelled (mnemonic : String)
  deriving DecidableEq, Repr

/-! ## After the reset line -/

/-- A slot of a part delivered new (R159). Its label is DESIGN CHOICE eight spaces, not safe (log entry 2). -/
def Slot.new : Slot := { state := .blank, content := [], used := 0, label := List.replicate 8 0x20#8 }

/-- The erase unit after the reset line (R167, R174). -/
def EraseUnit.idle : EraseUnit :=
  { state := .idle, batch := [], window := none, work := none, attempts := 0, result := [] }

/-- A part delivered new, after the reset line (R3, R43, R88, R100, R120, R144, R155, R167, R174). -/
def State.reset : State where
  pages := Vector.replicate 6 .blank
  ready := []
  active := none
  noPage := none
  keys := { queue := [], typeAhead := true, frame := .absent }
  scan := { buffer := none, confirm := none, window := none, receiving := none, answers := [] }
  interp := { state := .between, txn := none, stalled := none, replyLimit := 30, confirmWindow := 15 }
  reports := { queue := [.start], taken := 0, padding := 0, notice := none }
  store := { slots := Vector.replicate 24 .new, unit := .idle }
  outputs := { stream := none, input := none, display := none }
  choices := 0
  pending := []

end Sys2Proof.Machine
end

