-- ==== Sys2Proof/Machine/Operands.lean ====
section
/-! DEFINITION. The byte layouts (file 11): kinds, orders, operands, keys, and the codes of upstream bytes. -/

namespace Sys2Proof.Machine

/-! ## Bytes -/

/-- The byte of a number below 256. -/
def byteOf (n : Nat) : Byte := BitVec.ofNat 8 n

/-- A two-byte quantity, high byte first (R182). -/
def twoBytes (n : Nat) : List Byte := [byteOf (n / 256), byteOf n]

/-- The bytes of a string of printable characters. -/
def ascii (s : String) : List Byte := s.toList.map fun c => byteOf c.toNat

/-- A printable code, 20h–7Eh. -/
def printable (b : Byte) : Bool := 0x20 ≤ b.toNat && b.toNat ≤ 0x7E

/-- R132: a byte outside 20h–7Eh is written as '?'. -/
def substituted (b : Byte) : Byte := if printable b then b else 0x3F#8

/-- A code '0'–'9'. -/
def isDigit (b : Byte) : Bool := 0x30 ≤ b.toNat && b.toNat ≤ 0x39

/-- A code 'A'–'Z'. -/
def isCapital (b : Byte) : Bool := 0x41 ≤ b.toNat && b.toNat ≤ 0x5A

/-- A code 'a'–'z'. -/
def isSmall (b : Byte) : Bool := 0x61 ≤ b.toNat && b.toNat ≤ 0x7A

/-- Null or space, the codes an empty field holds (R42). -/
def isBlank (b : Byte) : Bool := b == 0x00#8 || b == 0x20#8

/-- The digit a code '0'–'9' stands for. -/
def digitValue (b : Byte) : Nat := b.toNat - 0x30

/-- The code of a digit 0–9. -/
def digitByte (n : Nat) : Byte := byteOf (0x30 + n)

/-- Page byte 0–5 (R123). -/
def pageOfByte (b : Byte) : Option PageNum := if h : b.toNat < 6 then some ⟨b.toNat, h⟩ else none

/-- Slot byte 0–23 (R161, R165, R168). -/
def slotOfByte (b : Byte) : Option SlotNum := if h : b.toNat < 24 then some ⟨b.toNat, h⟩ else none

/-- Chain id byte 0–3 (R117, R118). -/
def chainOfByte (b : Byte) : Option ChainId := if h : b.toNat < 4 then some ⟨b.toNat, h⟩ else none

/-- Row and column operands as a position, when the row is 0–23 and the column 0–79 (R131, R137). -/
def positionOf (row column : Byte) : Option Nat :=
  if row.toNat ≤ 23 ∧ column.toNat ≤ 79 then some (row.toNat * 80 + column.toNat) else none

/-- A count of two bytes, high byte first (R133, R182). -/
def countOf (high low : Byte) : Nat := high.toNat * 256 + low.toNat

/-- An operand that names a field: every number names itself, and above 95 none is in use (R125). -/
def fieldOfByte (b : Byte) : Nat := b.toNat

/-! ## Kinds and headers -/

/-- Transaction kinds (R122). -/
inductive Kind where
  | load
  | amend
  | post
  | reopen
  | close
  | restart
  | setup
  | query
  | store
  | erase
  | pause
  | resume
  deriving DecidableEq, Repr

/-- The kind byte (11.2). -/
def Kind.code : Kind → Byte
  | .load => 0x4C#8
  | .amend => 0x41#8
  | .post => 0x50#8
  | .reopen => 0x4F#8
  | .close => 0x43#8
  | .restart => 0x52#8
  | .setup => 0x53#8
  | .query => 0x51#8
  | .store => 0x54#8
  | .erase => 0x45#8
  | .pause => 0x48#8
  | .resume => 0x55#8

/-- The kind a kind byte names (R122, R183). -/
def kindOfByte (b : Byte) : Option Kind :=
  [Kind.load, .amend, .post, .reopen, .close, .restart, .setup, .query, .store, .erase, .pause, .resume].find?
    fun k => k.code == b

/-- The five kinds whose page byte names a page (R122). -/
def Kind.namesPage : Kind → Bool
  | .load | .amend | .post | .reopen | .close => true
  | .restart | .setup | .query | .store | .erase | .pause | .resume => false

/-- R122: the header is complete with these bytes after START. -/
def headerComplete (header : List Byte) : Bool :=
  match header with
  | kind :: _page :: _tag :: operands =>
    match kindOfByte kind with
    | some .reopen | some .close => 1 ≤ operands.length
    | some .setup => 3 ≤ operands.length
    | some .store => 9 ≤ operands.length
    | some .erase =>
      match operands with
      | [] => false
      | count :: slots => count.toNat == 0 || 8 < count.toNat || count.toNat ≤ slots.length
    | some .load | some .amend | some .post | some .restart | some .query | some .pause | some .resume => true
    | none => true
  | _ => false

/-- The record's kind (R120), known once the kind byte is taken. -/
def Transaction.kind (t : Transaction) : Option Kind := t.header.head?.bind kindOfByte

/-- The page the transaction names, for the five kinds that name one (R122). -/
def Transaction.page (t : Transaction) : Option PageNum :=
  match t.kind with
  | some k => if k.namesPage then (t.header[1]?).bind pageOfByte else none
  | none => none

/-- The record's tag. -/
def Transaction.tag (t : Transaction) : Byte := t.header.getD 2 0x00#8

/-- The header operands after the tag. -/
def Transaction.operands (t : Transaction) : List Byte := t.header.drop 3

/-- A record as START opens it (R121). -/
def Transaction.opened : Transaction :=
  { header := [], order := [], index := 0, writePos := 0, status := .ok, firstSkipped := none }

/-! ## Orders -/

/-- Orders (section 7.5). -/
inductive OrderCode where
  | setpos
  | text
  | repeatChar
  | clear
  | define
  | drop
  | cursor
  | message
  | mark
  | unmodify
  | chain
  | unchain
  | recall
  | select
  deriving DecidableEq, Repr

/-- The order code byte (11.2). -/
def OrderCode.code : OrderCode → Byte
  | .setpos => 0x11#8
  | .text => 0x12#8
  | .repeatChar => 0x13#8
  | .clear => 0x14#8
  | .define => 0x15#8
  | .drop => 0x16#8
  | .cursor => 0x17#8
  | .message => 0x18#8
  | .mark => 0x19#8
  | .unmodify => 0x1A#8
  | .chain => 0x1B#8
  | .unchain => 0x1C#8
  | .recall => 0x1D#8
  | .select => 0x1E#8

/-- The order an order code names (R124, 11.2). -/
def orderOfByte (b : Byte) : Option OrderCode :=
  [OrderCode.setpos, .text, .repeatChar, .clear, .define, .drop, .cursor, .message, .mark, .unmodify, .chain,
    .unchain, .recall, .select].find? fun o => o.code == b

/-- The kinds that allow an order (section 7.5, "Allowed in"). -/
def OrderCode.allowedIn (o : OrderCode) (k : Kind) : Bool :=
  match o with
  | .setpos | .text | .repeatChar | .clear | .message =>
    k == .load || k == .amend || k == .reopen || k == .post || k == .store
  | .define | .cursor | .chain | .select => k == .load || k == .amend || k == .reopen || k == .store
  | .drop => k == .load || k == .amend || k == .reopen
  | .mark => k == .amend || k == .reopen || k == .post
  | .unmodify | .unchain => k == .amend || k == .reopen
  | .recall => k == .load

/-- What the operand bytes read so far make of an order: more to read, all read, or refused at a count (R124). -/
inductive OperandsRead where
  | more
  | complete
  | refused (status : Status)
  deriving DecidableEq, Repr

/-- R124: a count that gives the number of bytes to follow is checked as soon as it is read (R132, R138, R136). -/
def operandsRead (o : OrderCode) (operands : List Byte) : OperandsRead :=
  let fixed (n : Nat) : OperandsRead := if n ≤ operands.length then .complete else .more
  match o with
  | .setpos | .cursor | .mark | .clear => fixed 2
  | .repeatChar => fixed 3
  | .define => fixed 15
  | .drop | .unmodify | .unchain | .recall | .select => fixed 1
  | .text =>
    match operands with
    | [] => .more
    | n :: bytes => if n.toNat = 0 then .refused .badPos else if n.toNat ≤ bytes.length then .complete else .more
  | .message =>
    match operands with
    | [] => .more
    | n :: bytes => if 56 < n.toNat then .refused .badOrder else if n.toNat ≤ bytes.length then .complete else .more
  | .chain =>
    match operands with
    | _id :: _action :: _count :: _follow :: m :: members =>
      if m.toNat = 0 ∨ 16 < m.toNat then .refused .badOrder
      else if m.toNat ≤ members.length then .complete else .more
    | _ => .more

/-! ## DEFINE operands -/

/-- The fifteen operand bytes as DEFINE's operands; the bound's four bytes are read high byte first (11.2, R182). -/
def defineOf (operands : List Byte) : DefineOperands :=
  let b (i : Nat) : Byte := operands.getD i 0x00#8
  { number := b 0, length := b 1, kind := b 2, cls := b 3, source := b 4, flags := b 5, check := b 6, scale := b 7,
    bound := b 8 ++ b 9 ++ b 10 ++ b 11, presentation := b 12, exitOption := b 13, continuation := b 14 }

/-- DEFINE's fifteen operand bytes. -/
def defineBytes (d : DefineOperands) : List Byte :=
  [d.number, d.length, d.kind, d.cls, d.source, d.flags, d.check, d.scale,
    d.bound.extractLsb' 24 8, d.bound.extractLsb' 16 8, d.bound.extractLsb' 8 8, d.bound.extractLsb' 0 8,
    d.presentation, d.exitOption, d.continuation]

/-- Class codes. -/
def classOfByte (b : Byte) : Option FieldClass :=
  match b.toNat with
  | 0 => some .alpha
  | 1 => some .code
  | 2 => some .digits
  | 3 => some .amount
  | _ => none

/-- Source codes. -/
def sourceOfByte (b : Byte) : Option Source :=
  match b.toNat with
  | 0 => some .key
  | 1 => some .scan
  | 2 => some .both
  | _ => none

/-- Check kind codes. -/
def checkOfByte (b : Byte) : Option CheckKind :=
  match b.toNat with
  | 0 => some .noCheck
  | 1 => some .m10
  | 2 => some .m11
  | _ => none

/-- Exit option and chain action codes. -/
def actionOfByte (b : Byte) : Option Action :=
  match b.toNat with
  | 0 => some .nothing
  | 1 => some .attn
  | 2 => some .send
  | _ => none

/-- Intensity, bits 0–1 of the presentation byte; 3 is outside the list. Bits 3–7 are disregarded (R183). -/
def intensityOfByte (b : Byte) : Option Intensity :=
  match b.toNat % 4 with
  | 0 => some .normal
  | 1 => some .bright
  | 2 => some .hidden
  | _ => none

/-! ## Keys -/

/-- What a key code is to the Edit Engine (R44). -/
inductive Key where
  | left
  | right
  | up
  | down
  | tab
  | backtab
  | home
  | newline
  | insert
  | delete
  | backspace
  | eraseEof
  | clearField
  | reset
  | attn
  | park
  /-- ENTER with id 0, F1–F12 with ids 1–12. -/
  | send (id : Nat)
  | character (b : Byte)
  | unknown
  deriving DecidableEq, Repr

/-- The key a code names (11.4). -/
def keyOfByte (b : Byte) : Key :=
  if printable b then .character b
  else if 0x91 ≤ b.toNat ∧ b.toNat ≤ 0x9C then .send (b.toNat - 0x90)
  else
    match b.toNat with
    | 0x80 => .left
    | 0x81 => .right
    | 0x82 => .up
    | 0x83 => .down
    | 0x84 => .tab
    | 0x85 => .backtab
    | 0x86 => .home
    | 0x87 => .newline
    | 0x88 => .insert
    | 0x89 => .delete
    | 0x8A => .backspace
    | 0x8B => .eraseEof
    | 0x8C => .clearField
    | 0x8D => .reset
    | 0x8E => .send 0
    | 0x8F => .attn
    | 0x90 => .park
    | _ => .unknown

/-! ## Upstream codes -/

/-- Status codes (11.3). -/
def Status.code : Status → Byte
  | .ok => 0x00#8
  | .someSkipped => 0x01#8
  | .badPage => 0x10#8
  | .state => 0x11#8
  | .stale => 0x12#8
  | .late => 0x13#8
  | .busy => 0x14#8
  | .badOrder => 0x20#8
  | .badPos => 0x21#8
  | .badField => 0x22#8
  | .pool => 0x23#8
  | .badSlot => 0x30#8
  | .slotBusy => 0x31#8
  | .notBlank => 0x32#8
  | .storeFull => 0x33#8
  | .aborted => 0x3F#8

/-- Page state codes (11.3). -/
def PageState.code : PageState → Byte
  | .free => 0x00#8
  | .loading => 0x01#8
  | .ready => 0x02#8
  | .active => 0x03#8
  | .sending => 0x04#8
  | .awaiting => 0x05#8

/-- Erase unit state codes (11.3). -/
def UnitState.code : UnitState → Byte
  | .idle => 0x00#8
  | .gathering => 0x01#8
  | .erasing => 0x02#8
  | .pausing => 0x03#8
  | .paused => 0x04#8

/-- Slot state codes (11.3). -/
def SlotState.code : SlotState → Byte
  | .blank => 0x00#8
  | .recording => 0x01#8
  | .filled => 0x02#8
  | .failed => 0x03#8
  | .queued _ => 0x04#8
  | .erasing => 0x05#8
  | .held => 0x06#8

/-- Erase outcome codes (11.3). -/
def EraseOutcome.code : EraseOutcome → Byte
  | .blank => 0x00#8
  | .failed => 0x01#8

/-- Cause and detail bytes of an attention (R150, 11.3). -/
def Cause.codes : Cause → List Byte
  | .key => [0x00#8, 0x00#8]
  | .chain id => [0x01#8, byteOf id.val]
  | .exit field => [0x02#8, byteOf field]

/-- Answers to a scan frame (R102, 11.4). -/
inductive ScanAnswer where
  | ack
  | nakBusy
  | nakReject
  deriving DecidableEq, Repr

/-- The bytes of an answer (11.4, R184). -/
def ScanAnswer.bytes : ScanAnswer → List Byte
  | .ack => [0x06#8]
  | .nakBusy => [0x15#8, 0x01#8]
  | .nakReject => [0x15#8, 0x02#8]

/-- The notice area's code for an error (R180). -/
def ErrorCode.shown : ErrorCode → String
  | .eProt => "E-PROT"
  | .eSrc => "E-SRC"
  | .eClass => "E-CLASS"
  | .eOver => "E-OVER"
  | .eForm => "E-FORM"
  | .eScale => "E-SCALE"
  | .eRange => "E-RANGE"
  | .eCheck => "E-CHECK"
  | .eFill => "E-FILL"
  | .eMand => "E-MAND"

/-- The notice area's code for a last notice code (R180). -/
def Notice.shown : Notice → String
  | .error code => code.shown
  | .sAgain => "S-AGAIN"
  | .sRescan => "S-RESCAN"
  | .sReject => "S-REJECT"
  | .eLink => "E-LINK"
  | .eFull => "E-FULL"
  | .eKey => "E-KEY"
  | .noNext => "NO NEXT"
  | .wait => "WAIT"

/-- The notice area's code for a no-page notice (R180). -/
def NoPageNotice.shown : NoPageNotice → String
  | .eNoForm => "E-NOFORM"
  | .eKey => "E-KEY"

end Sys2Proof.Machine
end

