-- ==== Sys2Proof/Machine/Ops.lean ====
section
/-! DEFINITION. Operations the blocks share: page cells, pages and fields, the report queue and its waiting places,
attentions, error hold, promotion and release. -/

namespace Sys2Proof.Machine

/-! ## Page cells -/

/-- The code of a cell; a position not listed holds 00h (R2). -/
def Cells.read : Cells → Nat → Byte
  | [], _ => 0x00#8
  | (b, v) :: rest, a => if b = a then v else Cells.read rest a

/-- Store a code at a place of the list, keeping the list canonical. -/
def Cells.put : Cells → Nat → Byte → Cells
  | [], a, v => if v = 0x00#8 then [] else [(a, v)]
  | (b, w) :: rest, a, v =>
    if a < b then (if v = 0x00#8 then (b, w) :: rest else (a, v) :: (b, w) :: rest)
    else if a = b then (if v = 0x00#8 then rest else (a, v) :: rest)
    else (b, w) :: Cells.put rest a v

/-- Write a cell 0–1919; no other position is a cell (log entry 1). -/
def Cells.write (m : Cells) (a : Nat) (v : Byte) : Cells := if a < 1920 then m.put a v else m

/-- The canonical form: positions strictly rising and below 1920, no listed cell 00h. -/
abbrev Cells.wf (m : Cells) : Prop := m.Pairwise (fun c d => c.1 < d.1) ∧ ∀ c ∈ m, c.1 < 1920 ∧ c.2 ≠ 0x00#8

/-- The position after p; after 1919 the next is 0 (R131). -/
def nextPosition (p : Nat) : Nat := (p + 1) % 1920

/-- Write bytes from a position on, one cell after another, with the wrap of R131. -/
def Cells.writeRun : Cells → Nat → List Byte → Cells
  | m, _, [] => m
  | m, a, b :: bs => Cells.writeRun (m.write a b) (nextPosition a) bs

/-- Write codes at listed positions. -/
def Cells.writeAll (m : Cells) (writes : List (Nat × Byte)) : Cells :=
  writes.foldl (fun m w => m.write w.1 w.2) m

/-- The codes of `length` cells from a position on, inside the page. -/
def Cells.readRun (m : Cells) (start length : Nat) : List Byte := (List.range' start length).map m.read

/-! ## Pages -/

/-- The six page numbers, ascending. -/
def allPages : List PageNum := [0, 1, 2, 3, 4, 5]

/-- The four chain ids, ascending. -/
def allChains : List ChainId := [0, 1, 2, 3]

/-- The 24 slot numbers, ascending. -/
def allSlots : List SlotNum := List.finRange 24

/-- A page of the state. -/
def State.page (s : State) (p : PageNum) : Page := s.pages[p.val]

/-- The state with one page replaced. -/
def State.setPage (s : State) (p : PageNum) (page : Page) : State := { s with pages := s.pages.set p.val page }

/-- The state with one page changed. -/
def State.updPage (s : State) (p : PageNum) (f : Page → Page) : State := s.setPage p (f (s.page p))

/-- The state with a page's last notice code set (R43). -/
def State.setNotice (s : State) (p : PageNum) (notice : Option Notice) : State :=
  s.updPage p fun g => { g with notice := notice }

/-! ## Fields -/

/-- The last cell of a field (R26). -/
def Field.last (f : Field) : Nat := f.start + f.length - 1

/-- The field's cells include the cell (R26). -/
def Field.holds (f : Field) (position : Nat) : Bool := f.start ≤ position && position < f.start + f.length

/-- The field is of kind ENTRY (R26). -/
def Field.isEntry (f : Field) : Bool := f.entry.isSome

/-- A change of an ENTRY field's items; a PROTECTED field has none. -/
def Field.mapEntry (f : Field) (g : EntryItems → EntryItems) : Field := { f with entry := f.entry.map g }

/-- The touched mark (R28). -/
def Field.touched (f : Field) : Bool := f.entry.any (·.touched)

/-- The field named by the continuation link (R33). -/
def Field.continuation (f : Field) : Option Nat := f.entry.bind (·.continuation)

/-- Membership (R32): the one field whose cells include the cell. -/
def Page.fieldAt (g : Page) (position : Nat) : Option Field := g.fields.find? (·.holds position)

/-- The ENTRY field whose cells include the cell. -/
def Page.entryAt (g : Page) (position : Nat) : Option Field :=
  (g.fieldAt position).filter (·.isEntry)

/-- The page's ENTRY fields in positional order (R32). -/
def Page.entryFields (g : Page) : List Field := g.fields.filter (·.isEntry)

/-- The field of the page with a number. -/
def Page.fieldNumbered (g : Page) (n : Nat) : Option Field := g.fields.find? (·.number == n)

/-- Change the field with a number. -/
def Page.updField (g : Page) (n : Nat) (change : Field → Field) : Page :=
  { g with fields := g.fields.map fun f => if f.number = n then change f else f }

/-- Change the ENTRY items of the field with a number. -/
def Page.updEntry (g : Page) (n : Nat) (change : EntryItems → EntryItems) : Page :=
  g.updField n (·.mapEntry change)

/-- The field's codes, start to last cell. -/
def Page.codesOf (g : Page) (f : Field) : List Byte := g.cells.readRun f.start f.length

/-- The field whose continuation names n: the one link to the target n (R33). -/
def Page.linkSource (g : Page) (n : Nat) : Option Field := g.fields.find? (·.continuation == some n)

/-- From a field back to the head of its group, over at most `fuel` links (R34). -/
def Page.headFrom (g : Page) : Nat → Field → Field
  | 0, f => f
  | fuel + 1, f =>
    match g.linkSource f.number with
    | some source => Page.headFrom g fuel source
    | none => f

/-- From a field forward along its links, over at most `fuel` links (R34). -/
def Page.runFrom (g : Page) : Nat → Field → List Field
  | 0, f => [f]
  | fuel + 1, f =>
    match f.continuation.bind g.fieldNumbered with
    | some target => f :: Page.runFrom g fuel target
    | none => [f]

/-- The continuation group of an ENTRY field, head first (R34). A page's links are fewer than its fields. -/
def Page.group (g : Page) (f : Field) : List Field :=
  g.runFrom g.fields.length (g.headFrom g.fields.length f)

/-- The cells of a group as one sequence (R34). -/
def groupCells (group : List Field) : List Nat := group.flatMap fun f => List.range' f.start f.length

/-- Free records of the pool: 256 less those in use on the six pages (R25). -/
def State.freeRecords (s : State) : Nat := 256 - (allPages.map fun p => (s.page p).fields.length).sum

/-! ## Chains -/

/-- The chain a field is a member of, with its position in the member list (R53, R109). -/
def Page.memberOf (g : Page) (n : Nat) : Option (ChainId × Nat) :=
  allChains.findSome? fun c =>
    match g.chains[c.val] with
    | some chain => (chain.members.findIdx? (· == n)).map fun k => (c, k)
    | none => none

/-- Change a chain record, where there is one. -/
def Page.updChain (g : Page) (c : ChainId) (change : Chain → Chain) : Page :=
  { g with chains := g.chains.set c.val (g.chains[c.val].map change) }

/-- R53, R83: the member's chain becomes current, with its index at the member's position. -/
def Page.selectMember (g : Page) (n : Nat) : Page :=
  match g.memberOf n with
  | some (c, k) => { g.updChain c (fun chain => { chain with index := k }) with current := some c }
  | none => g

/-! ## Release -/

/-- R2: release leaves the entry serial, and the transaction-in-flight mark is the transaction's to clear (R8). -/
def Page.released (g : Page) : Page := { Page.blank with serial := g.serial, inFlight := g.inFlight }

/-! ## Input -/

/-- R90: the ACTIVE page carries the transaction-in-flight mark of an AMEND or a REOPEN. -/
def State.inhibited (s : State) : Bool :=
  match s.active, s.interp.txn.bind (·.kind) with
  | some p, some .amend | some p, some .reopen => (s.page p).inFlight
  | _, _ => false

/-- R98: the type-ahead queue is emptied. -/
def State.dropKeys (s : State) : State := { s with keys.queue := [] }

/-- R114: the confirm-pending record is discarded and the window timer stopped. -/
def State.dropConfirm (s : State) : State := { s with scan.confirm := none, scan.window := none }

/-- R102, R184: an answer joins the answer bytes not yet taken. -/
def State.answerScan (s : State) (answer : ScanAnswer) : State :=
  { s with scan.answers := s.scan.answers ++ answer.bytes }

/-- R6, R104: a frame held in the scan buffer is answered NAK-BUSY and discarded. -/
def State.refuseHeld (s : State) : State :=
  match s.scan.buffer with
  | some _ => { s with scan.buffer := none }.answerScan .nakBusy
  | none => s

/-- R65: the page enters error hold; the code is its last notice code and the type-ahead queue is emptied. -/
def State.enterHold (s : State) (p : PageNum) (code : ErrorCode) : State :=
  (s.updPage p fun g => { g with hold := some code, notice := some (.error code) }).dropKeys

/-! ## Promotion -/

/-- R6, R46: the ready queue's head becomes the active page when none is active. -/
def State.promote (s : State) : State :=
  match s.active, s.ready with
  | none, p :: rest =>
    let s := s.updPage p fun g => { g with state := .active }
    let s := { s with ready := rest, active := some p, noPage := none }
    s.dropKeys.refuseHeld.dropConfirm
  | _, _ => s

/-- R16, R7, R98, R114: the active page leaves ACTIVE; the keys typed ahead and the confirm-pending record go. -/
def State.leaveActive (s : State) : State := { s with active := none }.dropKeys.dropConfirm

/-! ## The report queue and its waiting places -/

/-- R145: the report queue holds 8 reports. -/
def State.queueFull (s : State) : Bool := 8 ≤ s.reports.queue.length

/-- R145: a report joins the tail. -/
def State.queueReport (s : State) (r : Report) : State := { s with reports.queue := s.reports.queue ++ [r] }

/-- R130, R152: a transaction's answer is queued, or held as the stalled report when the queue is full. -/
def State.answer (s : State) (r : Report) : State :=
  if s.queueFull then { s with interp.stalled := some r } else s.queueReport r

/-- R151: a cause joins an attention pending set. -/
def AttentionSet.record (a : AttentionSet) : Cause → AttentionSet
  | .key => { a with key := true }
  | .chain id => { a with chains := a.chains.set id.val true }
  | .exit field => { a with exit := some field }

/-- R156: the first cause of a set, in the order KEY, CHAIN0–CHAIN3, EXIT. -/
def AttentionSet.first (a : AttentionSet) : Option Cause :=
  if a.key then some .key
  else
    match allChains.find? (fun c => a.chains[c.val]) with
    | some c => some (.chain c)
    | none => a.exit.map .exit

/-- R151: a cause leaves the set. -/
def AttentionSet.remove (a : AttentionSet) : Cause → AttentionSet
  | .key => { a with key := false }
  | .chain id => { a with chains := a.chains.set id.val false }
  | .exit _ => { a with exit := none }

/-- R150: an attention of a page is queued with the page's serial, or its cause is recorded as pending. -/
def State.raiseAttention (s : State) (p : PageNum) (cause : Cause) : State :=
  if s.queueFull then s.updPage p fun g => { g with attention := g.attention.record cause }
  else s.queueReport (.attention p cause (s.page p).serial)

/-- R154: a new result merged into a pending notice: a listed slot takes the new outcome in its place, and the other pairs
follow in their own order. -/
def mergeResult (notice result : List (SlotNum × EraseOutcome)) : List (SlotNum × EraseOutcome) :=
  result.foldl
    (fun n pair => if n.any (·.1 == pair.1) then n.map (fun q => if q.1 = pair.1 then pair else q) else n ++ [pair])
    notice

/-- R154: an erase result is queued as an ERASE-DONE report, or kept in the pending erase notice. -/
def State.handResult (s : State) (result : List (SlotNum × EraseOutcome)) : State :=
  if s.queueFull then { s with reports.notice := some (mergeResult (s.reports.notice.getD []) result) }
  else s.queueReport (.eraseDone result)

/-- The first page, in ascending page number, with a pending cause (R156). -/
def State.firstAttention (s : State) : Option (PageNum × Cause) :=
  allPages.findSome? fun p => (s.page p).attention.first.map fun c => (p, c)

/-- R156: one freed entry is handed to one waiting report: the stalled report, then the pending erase notice, then the
pending attention causes. -/
def State.handFreed (s : State) : State :=
  match s.interp.stalled, s.reports.notice, s.firstAttention with
  | some r, _, _ => { s with interp.stalled := none }.queueReport r
  | none, some pairs, _ => { s with reports.notice := none }.queueReport (.eraseDone pairs)
  | none, none, some (p, cause) =>
    let s := s.queueReport (.attention p cause (s.page p).serial)
    s.updPage p fun g => { g with attention := g.attention.remove cause }
  | none, none, none => s

/-- R156: several entries freed in one event are handed out one after another. -/
def State.handFreedTimes : Nat → State → State
  | 0, s => s
  | n + 1, s => State.handFreedTimes n s.handFreed

end Sys2Proof.Machine
end

