-- ==== Sys2Proof/Machine/Flags.lean ====
section
/-! DEFINITION. The marks and tags of fields: what an edit action, a check, an entry, a deposit and the orders make of the
modified tag, the touched mark, the check-error mark and the host mark. -/

namespace Sys2Proof.Machine

/-- R28, R52, R81: a passing exit check at an exit clears the touched mark and the check-error mark. -/
def EntryItems.exitPassed (e : EntryItems) : EntryItems := { e with touched := false, checkError := none }

/-- R82: a field that passes in the walk has its check-error mark cleared; its touched mark is left. -/
def EntryItems.checkPassed (e : EntryItems) : EntryItems := { e with checkError := none }

/-- R41: a failing check sets the check-error mark. -/
def EntryItems.checkFailed (e : EntryItems) (code : ErrorCode) : EntryItems := { e with checkError := some code }

/-- R83: the field at which send validation fails takes the check-error mark and its touched mark. -/
def EntryItems.sendFailed (e : EntryItems) (code : ErrorCode) : EntryItems :=
  { e with checkError := some code, touched := true }

/-- R53: the cursor entering a field clears its touched mark. -/
def EntryItems.entered (e : EntryItems) : EntryItems := { e with touched := false }

/-- R108 step 2: a deposit clears the touched mark, the check-error mark and the host mark. -/
def EntryItems.deposited (e : EntryItems) : EntryItems :=
  { e with touched := false, checkError := none, hostMark := none }

/-- R108 step 2: a deposit sets the modified tag. -/
def Field.deposited (f : Field) : Field := { f.mapEntry (·.deposited) with modified := true }

/-- R59: the field in which a key acts has its modified tag set and its host mark cleared. -/
def Field.acted (f : Field) : Field :=
  { f.mapEntry (fun e => { e with hostMark := none }) with modified := true }

/-- R59: the field in which a key acts has its touched mark set too (for CLEAR-FIELD, the head alone). -/
def Field.touch (f : Field) : Field := f.mapEntry fun e => { e with touched := true }

/-- R39: UNMODIFY clears the modified tag and nothing else. -/
def Field.unmodified (f : Field) : Field := { f with modified := false }

/-- R40: MARK sets the host mark to a code 1–99, or clears it with 0. -/
def EntryItems.marked (e : EntryItems) (code : Nat) : EntryItems :=
  { e with hostMark := if code = 0 then none else some code }

/-- R59: the fields of a group after an edit action that has already written `after`'s cells: a field in which the key acts
is modified and unmarked, the field to touch is touched, any other field of the group is modified when a cell's code
changed. -/
def Field.afterEdit (before after : Cells) (group acting : List Nat) (touch : Nat) (f : Field) : Field :=
  if f.number ∈ acting then (if f.number = touch then f.acted.touch else f.acted)
  else if f.number ∈ group ∧ before.readRun f.start f.length ≠ after.readRun f.start f.length then
    { f with modified := true }
  else f

/-- R59: an edit action on a group: the cells are written and the marks set. -/
def Page.editAction (g : Page) (group : List Field) (acting : List Nat) (touch : Nat) (writes : List (Nat × Byte)) : Page :=
  let cells := g.cells.writeAll writes
  { g with
    cells := cells
    fields := g.fields.map (Field.afterEdit g.cells cells (group.map (·.number)) acting touch) }

end Sys2Proof.Machine
end

