-- ==== Sys2Proof/Machine/Check.lean ====
section
/-! DEFINITION. The Check Unit (file 04): the exit check of a run of cells. It holds no state (R70). -/

namespace Sys2Proof.Machine

/-- R70: pass, with the cells as they are to stand, or fail with a code. -/
inductive CheckResult where
  | pass (cells : List Byte)
  | fail (code : ErrorCode)
  deriving DecidableEq, Repr

/-- R42: every cell is null or space. -/
def isEmptyRun (cells : List Byte) : Bool := cells.all isBlank

/-- R74, R78: the run from the first to the last cell that is neither null nor space. -/
def trimmed (cells : List Byte) : List Byte := ((cells.dropWhile isBlank).reverse.dropWhile isBlank).reverse

/-- The typing filter of a class: the character as it is written, folded where the class folds it (R29, R56, R106). -/
def admittedCode (cls : FieldClass) (signed : Bool) (b : Byte) : Option Byte :=
  match cls with
  | .alpha => if printable b then some b else none
  | .code =>
    if isDigit b || isCapital b || b == 0x2D#8 then some b
    else if isSmall b then some (b - 0x20#8) else none
  | .digits => if isDigit b then some b else none
  | .amount => if isDigit b || b == 0x2E#8 || (b == 0x2D#8 && signed) then some b else none

/-- R72: a cell that is null, space or a character the class admits (no fold). AMOUNT has its own stages. -/
def classCell (cls : FieldClass) (b : Byte) : Bool :=
  isBlank b ||
    match cls with
    | .alpha => printable b
    | .code => isDigit b || isCapital b || b == 0x2D#8
    | .digits => isDigit b
    | .amount => true

/-! ## Amounts -/

/-- An entry string as R74 parses it: its sign and its two runs of digits. -/
structure AmountParts where
  negative : Bool
  whole : List Byte
  fraction : List Byte
  deriving DecidableEq, Repr

/-- R74's grammar over the entry string. -/
def parseAmount (signed : Bool) (entry : List Byte) : Option AmountParts :=
  let negative := signed && entry.head? == some 0x2D#8
  let digits := if negative then entry.drop 1 else entry
  let whole := digits.takeWhile isDigit
  match digits.dropWhile isDigit with
  | [] => if whole.isEmpty then none else some { negative := negative, whole := whole, fraction := [] }
  | point :: fraction =>
    if point == 0x2E#8 && fraction.all isDigit && !(whole.isEmpty && fraction.isEmpty) then
      some { negative := negative, whole := whole, fraction := fraction }
    else none

/-- The number whose decimal digits are listed. -/
def decimalValue (digits : List Byte) : Nat := digits.foldl (fun n d => n * 10 + digitValue d) 0

/-- The decimal digits of a number, no leading zeros, before digits already made; `fuel` bounds their number. -/
def decimalDigits : Nat → Nat → List Byte → List Byte
  | 0, _, acc => acc
  | fuel + 1, n, acc =>
    if n < 10 then digitByte n :: acc else decimalDigits fuel (n / 10) (digitByte (n % 10) :: acc)

/-- A number in decimal without leading zeros and with at least one digit. -/
def decimal (n : Nat) : List Byte := decimalDigits (n + 1) n []

/-- Exactly `width` digits of a number, with leading zeros (for numbers below 10^width). -/
def paddedDecimal : Nat → Nat → List Byte
  | 0, _ => []
  | width + 1, n => paddedDecimal width (n / 10) ++ [digitByte (n % 10)]

/-- R76: the text of |V| at a scale, without sign. -/
def amountText (magnitude scale : Nat) : List Byte :=
  decimal (magnitude / 10 ^ scale) ++
    if scale = 0 then [] else 0x2E#8 :: paddedDecimal scale (magnitude % 10 ^ scale)

/-- R77: the text, without and with its sign, laid into `length` cells. -/
def justified (zeroFill negative : Bool) (length : Nat) (text : List Byte) : List Byte :=
  let sign : List Byte := if negative then [0x2D#8] else []
  let pad := length - (sign.length + text.length)
  if zeroFill then sign ++ List.replicate pad 0x30#8 ++ text
  else List.replicate pad 0x20#8 ++ sign ++ text

/-- R74 to R77: the AMOUNT stages on a run that is not empty, giving the normalised cells. -/
def amountCheck (e : EntryItems) (length : Nat) (cells : List Byte) : CheckResult :=
  match parseAmount e.signed (trimmed cells) with
  | none => .fail .eForm
  | some parts =>
    if e.scale < parts.fraction.length then .fail .eScale
    else
      let magnitude := decimalValue (parts.whole ++ parts.fraction) * 10 ^ (e.scale - parts.fraction.length)
      let negative := parts.negative && magnitude != 0
      let text := amountText magnitude e.scale
      if e.bound ≠ 0 ∧ e.bound < magnitude then .fail .eRange
      else if length < text.length + (if negative then 1 else 0) then .fail .eRange
      else .pass (justified e.zeroFill negative length text)

/-! ## Check digits -/

/-- Σ digit × weight, the weights repeating from the rightmost data digit on; `data` is rightmost first. -/
def weightedSum (weights : List Nat) (data : List Byte) : Nat :=
  ((data.zipIdx).map fun d => digitValue d.1 * weights.getD (d.2 % weights.length) 0).sum

/-- R79: the expected check of M10; `data` is rightmost first. -/
def expectedM10 (data : List Byte) : Nat := (10 - weightedSum [3, 1] data % 10) % 10

/-- R80: the expected check of M11, 0–10; `data` is rightmost first. -/
def expectedM11 (data : List Byte) : Nat := (11 - weightedSum [2, 3, 4, 5, 6, 7] data % 11) % 11

/-- The check character an expected check asks for: a digit, or 'X' for 10 in a CODE field; none otherwise (R80). -/
def checkCharacter (cls : FieldClass) (expected : Nat) : Option Byte :=
  if expected < 10 then some (digitByte expected) else if cls = .code then some 0x58#8 else none

/-- R78 to R80: the check-digit test of a run. -/
def checkDigitHolds (check : CheckKind) (cls : FieldClass) (cells : List Byte) : Bool :=
  match check, (trimmed cells).reverse with
  | .noCheck, _ => true
  | .m10, character :: data =>
    !data.isEmpty && data.all isDigit && checkCharacter cls (expectedM10 data) == some character
  | .m11, character :: data =>
    !data.isEmpty && data.all isDigit && checkCharacter cls (expectedM11 data) == some character
  | .m10, [] | .m11, [] => false

/-! ## The exit check -/

/-- R71: the exit check of a run of `length` cells against an ENTRY field's items. -/
def exitCheck (e : EntryItems) (length : Nat) (cells : List Byte) : CheckResult :=
  if isEmptyRun cells then .pass cells
  else
    let classed : CheckResult :=
      if e.cls = .amount then amountCheck e length cells
      else if cells.all (classCell e.cls) then .pass cells else .fail .eForm
    match classed with
    | .fail code => .fail code
    | .pass standing =>
      if !checkDigitHolds e.check e.cls cells then .fail .eCheck
      else if e.mustFill && cells.contains 0x00#8 then .fail .eFill
      else .pass standing

/-- R70: the exit check on the field's own cells; a PROTECTED field has no check. -/
def Page.checkField (g : Page) (f : Field) : CheckResult :=
  match f.entry with
  | some e => exitCheck e f.length (g.codesOf f)
  | none => .pass (g.codesOf f)

/-- R70, R77: the cells of a passing AMOUNT field are written; every other class keeps its cells. -/
def Page.writeChecked (g : Page) (f : Field) (cells : List Byte) : Page :=
  if f.entry.any (·.cls = .amount) then { g with cells := g.cells.writeRun f.start cells } else g

end Sys2Proof.Machine
end

