-- ==== Sys2Proof/Machine/Send.lean ====
section
/-! DEFINITION. Send validation (section 4.5) and what an accepted send does (R16, R147). -/

namespace Sys2Proof.Machine

/-- A page as a stage of send validation leaves it, with the code of the failure if one stopped it. -/
structure Validated where
  page : Page
  failure : Option ErrorCode
  deriving DecidableEq, Repr

/-! ## The stages on a page -/

/-- R52, R81: a passing check at an exit or at the start of send validation. -/
def Page.passExit (g : Page) (f : Field) (cells : List Byte) : Page :=
  (g.writeChecked f cells).updEntry f.number (·.exitPassed)

/-- R52, R81: a failing check sets the field's check-error mark. -/
def Page.failExit (g : Page) (f : Field) (code : ErrorCode) : Page := g.updEntry f.number (·.checkFailed code)

/-- R81: the exit check of the cursor's field, when that field is touched; the cursor does not move. -/
def Page.validateCursorField (g : Page) : Validated :=
  match g.entryAt g.cursor with
  | some f =>
    if f.touched then
      match g.checkField f with
      | .pass cells => { page := g.passExit f cells, failure := none }
      | .fail code => { page := g.failExit f code, failure := some code }
    else { page := g, failure := none }
  | none => { page := g, failure := none }

/-- R82: what the walk makes of one ENTRY field: absent when the field is neither mandatory nor modified. -/
def Page.walkTest (g : Page) (f : Field) : Option CheckResult :=
  match f.entry with
  | none => none
  | some e =>
    if e.mandatory && isEmptyRun (g.codesOf f) then some (.fail .eMand)
    else if f.modified then some (g.checkField f)
    else if e.mandatory then some (.pass (g.codesOf f))
    else none

/-- R83: the walk fails at a field: its marks are set, and when it does not hold the cursor the cursor is placed at its
start and its chain becomes current. -/
def Page.failWalk (g : Page) (f : Field) (code : ErrorCode) : Page :=
  let marked := g.updEntry f.number (·.sendFailed code)
  if f.holds g.cursor then marked else { marked with cursor := f.start }.selectMember f.number

/-- R82: the walk over ENTRY fields in positional order, stopping at the first failure. -/
def Page.walk : Page → List Field → Validated
  | g, [] => { page := g, failure := none }
  | g, f :: fs =>
    match g.walkTest f with
    | none => Page.walk g fs
    | some (.pass cells) => Page.walk ((g.writeChecked f cells).updEntry f.number (·.checkPassed)) fs
    | some (.fail code) => { page := g.failWalk f code, failure := some code }

/-- R81 to R83: send validation of a page. -/
def Page.validateSend (g : Page) : Validated :=
  match g.validateCursorField with
  | { page := g', failure := none } => g'.walk g'.entryFields
  | failed => failed

/-! ## The entry report -/

/-- R42: the length of a run's content, the cells after the last non-null cell removed. -/
def contentLength (cells : List Byte) : Nat := (cells.reverse.dropWhile (· == 0x00#8)).length

/-- R147: a field of the entry report, its content length taken from the cells as validation left them. -/
def Page.sentField (g : Page) (f : Field) : SentField :=
  { number := f.number, start := f.start, length := contentLength (g.codesOf f) }

/-- R147: the entry report of a page, with the page's present serial and cursor and its modified fields in positional
order. -/
def entryReportOf (p : PageNum) (g : Page) (sendKey : Nat) : EntryReport :=
  { page := p, serial := g.serial, sendKey := sendKey, row := g.cursor / 80, column := g.cursor % 80,
    fields := (g.fields.filter (·.modified)).map g.sentField }

/-! ## Sends -/

/-- R16 steps 1 to 3: the serial advances (255 to 0, R19), both marks clear, the page is SENDING. -/
def Page.sent (g : Page) : Page :=
  { g with serial := g.serial + 1, overdue := false, unsent := false, state := .sending }

/-- R16, R85: an accepted send of the active page. -/
def State.acceptSend (s : State) (p : PageNum) (sendKey : Nat) : State :=
  let s := s.updPage p (·.sent)
  let s := s.queueReport (.entry (entryReportOf p (s.page p) sendKey))
  s.leaveActive.promote

/-- R81 to R86: a send of the active page: validation, then the test for a free report entry (R84). -/
def State.send (s : State) (p : PageNum) (sendKey : Nat) : State :=
  let v := (s.page p).validateSend
  let s := s.setPage p v.page
  match v.failure with
  | some code => s.enterHold p code
  | none => if s.queueFull then s.setNotice p (some .eLink) else s.acceptSend p sendKey

end Sys2Proof.Machine
end

