-- ==== Sys2Proof/Machine/Edit.lean ====
section
/-! DEFINITION. The Edit Engine (file 03): cursor moves, exits and entries, typing, editing across groups, error hold,
control and send keys. -/

namespace Sys2Proof.Machine

/-! ## Cursor moves -/

/-- R51: the ENTRY field that a move to a position exits, if any. -/
def Page.exitOf (g : Page) (position : Nat) (continuation : Bool) : Option Field :=
  if continuation then none else (g.entryAt g.cursor).filter fun f => !f.holds position

/-- R53: an entry into a field clears its touched mark and makes its chain current at its member position. -/
def Page.enter (g : Page) (n : Nat) : Page := (g.updEntry n (·.entered)).selectMember n

/-- R51, R53: the cursor reaches a position, entering the ENTRY field there when it is another than the cursor's own. -/
def Page.arrive (g : Page) (position : Nat) : Page :=
  let moved := { g with cursor := position }
  match g.entryAt position with
  | some f => if (g.entryAt g.cursor).any (·.number == f.number) then moved else moved.enter f.number
  | none => moved

/-- R54: the exit option of a field whose exit check ran and passed. -/
def State.exitOption (s : State) (p : PageNum) (f : Field) : State :=
  match f.entry with
  | none => s
  | some e =>
    match e.exitOption with
    | .nothing => s
    | .attn => s.raiseAttention p (.exit f.number)
    | .send => s.send p 14

/-- R51 to R54: a cursor move of the active page. -/
def State.moveCursor (s : State) (p : PageNum) (position : Nat) (continuation : Bool) : State :=
  let g := s.page p
  match g.exitOf position continuation with
  | some f =>
    if f.touched then
      match g.checkField f with
      | .pass cells => (s.setPage p ((g.passExit f cells).arrive position)).exitOption p f
      | .fail code => (s.setPage p (g.failExit f code)).enterHold p code
    else s.setPage p (g.arrive position)
  | none => s.setPage p (g.arrive position)

/-- R48: the start of the first ENTRY field after a position, wrapping to the page's first, or 0 with none. -/
def Page.nextEntry (g : Page) (position : Nat) : Nat :=
  match g.entryFields.find? (fun f => position < f.start), g.entryFields.head? with
  | some f, _ => f.start
  | none, some first => first.start
  | none, none => 0

/-- R49: BACKTAB's position. -/
def Page.previousEntry (g : Page) : Nat :=
  match (g.entryAt g.cursor).filter (fun f => f.start < g.cursor) with
  | some f => f.start
  | none =>
    match (g.entryFields.filter (fun f => f.start < g.cursor)).getLast?, g.entryFields.getLast? with
    | some f, _ => f.start
    | none, some last => last.start
    | none, none => 0

/-- R50: HOME's position. -/
def Page.firstEntry (g : Page) : Nat := (g.entryFields.head?.map (·.start)).getD 0

/-- R50: NEWLINE's position. -/
def Page.newlineEntry (g : Page) : Nat :=
  let nextRow := (g.cursor / 80 + 1) * 80
  match g.entryFields.find? (fun f => nextRow ≤ f.start), g.entryFields.head? with
  | some f, _ => f.start
  | none, some first => first.start
  | none, none => nextRow % 1920

/-! ## Typing -/

/-- R57, insert mode: the group's cells from p on, each with the code before it, p with the character; absent when the
group's last cell is not null. -/
def Page.insertWrites (g : Page) (group : List Field) (position : Nat) (b : Byte) : Option (List (Nat × Byte)) :=
  let tail := (groupCells group).dropWhile (· ≠ position)
  let codes := tail.map g.cells.read
  if codes.getLast? = some 0x00#8 then some (tail.zip (b :: codes.dropLast)) else none

/-- R58: the move after a character has been written at the cursor in a field. -/
def State.advance (s : State) (p : PageNum) (f : Field) : State :=
  let g := s.page p
  if g.cursor ≠ f.last then s.moveCursor p (g.cursor + 1) false
  else
    match f.continuation.bind g.fieldNumbered with
    | some target => s.moveCursor p target.start true
    | none =>
      if f.entry.any (·.autoSkip) then s.moveCursor p (g.nextEntry g.cursor) false
      else s.moveCursor p (nextPosition g.cursor) false

/-- R56 to R59: a character key on the active page outside error hold. -/
def State.typeCharacter (s : State) (p : PageNum) (b : Byte) : State :=
  let g := s.page p
  match g.entryAt g.cursor with
  | none => s.enterHold p .eProt
  | some f =>
    if f.entry.any (·.source = .scan) then s.enterHold p .eSrc
    else
      match f.entry.bind fun e => admittedCode e.cls e.signed b with
      | none => s.enterHold p .eClass
      | some c =>
        let group := g.group f
        match if g.insert then g.insertWrites group g.cursor c else some [(g.cursor, c)] with
        | none => s.enterHold p .eOver
        | some writes => (s.setPage p (g.editAction group [f.number] f.number writes)).advance p f

/-! ## Editing across groups -/

/-- R60: the writes that close up the group's sequence at a position. -/
def Page.deleteWrites (g : Page) (group : List Field) (position : Nat) : List (Nat × Byte) :=
  let tail := (groupCells group).dropWhile (· ≠ position)
  tail.zip ((tail.map g.cells.read).drop 1 ++ [0x00#8])

/-- R60, R59: a DELETE at the cursor, in the ENTRY field that holds it. -/
def Page.deleteAt (g : Page) (f : Field) : Page :=
  let group := g.group f
  g.editAction group [f.number] f.number (g.deleteWrites group g.cursor)

/-- R60: the DELETE key. -/
def State.deleteKey (s : State) (p : PageNum) : State :=
  let g := s.page p
  match g.entryAt g.cursor with
  | none => s.enterHold p .eProt
  | some f => s.setPage p (g.deleteAt f)

/-- R61: BACKSPACE's new position, and whether the move crosses a link. -/
def Page.backspaceMove (g : Page) (f : Field) : Nat × Bool :=
  if g.cursor ≠ f.start then (g.cursor - 1, false)
  else
    match g.linkSource f.number with
    | some source => (source.last, true)
    | none => (g.cursor, false)

/-- R61: the BACKSPACE key: the move, then a DELETE at the new position. -/
def State.backspaceKey (s : State) (p : PageNum) : State :=
  let g := s.page p
  match g.entryAt g.cursor with
  | none => s.enterHold p .eProt
  | some f =>
    let move := g.backspaceMove f
    (s.moveCursor p move.1 move.2).deleteKey p

/-- R62: the ERASE-EOF key. -/
def State.eraseEofKey (s : State) (p : PageNum) : State :=
  let g := s.page p
  match g.entryAt g.cursor with
  | none => s.enterHold p .eProt
  | some f =>
    let group := g.group f
    let writes := ((groupCells group).dropWhile (· ≠ g.cursor)).map fun a => (a, 0x00#8)
    s.setPage p (g.editAction group [f.number] f.number writes)

/-- R63: CLEAR-FIELD on a page: nulls and the cursor to the head's start, then the marks of every field of the group, the
head touched after any entry has cleared it. -/
def Page.clearGroup (g : Page) (f : Field) : Page :=
  let group := g.group f
  let head := (group.head?).getD f
  (g.arrive head.start).editAction group (group.map (·.number)) head.number
    ((groupCells group).map fun a => (a, 0x00#8))

/-- R63: the CLEAR-FIELD key. -/
def State.clearFieldKey (s : State) (p : PageNum) : State :=
  let g := s.page p
  match g.entryAt g.cursor with
  | none => s.enterHold p .eProt
  | some f => s.setPage p (g.clearGroup f)

/-! ## Control keys -/

/-- R7: PARK on the active page. -/
def State.parkKey (s : State) (p : PageNum) : State :=
  match s.ready with
  | [] => s.setNotice p (some .noNext)
  | _ :: _ =>
    let s := s.updPage p fun g => { g with state := .ready }
    { s with ready := s.ready ++ [p] }.leaveActive.promote

/-- A key on the active page outside error hold, its last notice code already none (R45). -/
def State.actKey (s : State) (p : PageNum) (k : Key) : State :=
  let g := s.page p
  match k with
  | .left => s.moveCursor p ((g.cursor + 1919) % 1920) false
  | .right => s.moveCursor p ((g.cursor + 1) % 1920) false
  | .up => s.moveCursor p ((g.cursor + 1840) % 1920) false
  | .down => s.moveCursor p ((g.cursor + 80) % 1920) false
  | .tab => s.moveCursor p (g.nextEntry g.cursor) false
  | .backtab => s.moveCursor p g.previousEntry false
  | .home => s.moveCursor p g.firstEntry false
  | .newline => s.moveCursor p g.newlineEntry false
  | .insert => s.updPage p fun g => { g with insert := !g.insert }
  | .delete => s.deleteKey p
  | .backspace => s.backspaceKey p
  | .eraseEof => s.eraseEofKey p
  | .clearField => s.clearFieldKey p
  | .reset => s
  | .attn => s.raiseAttention p .key
  | .park => s.parkKey p
  | .send id => s.send p id
  | .character b => s.typeCharacter p b
  | .unknown => s.setNotice p (some .eKey)

/-- The Edit Engine takes a key (R45, R46, R66). -/
def State.editKey (s : State) (k : Key) : State :=
  match s.active with
  | none =>
    match k with
    | .reset => s
    | .unknown => { s with noPage := some .eKey }
    | _ => { s with noPage := some .eNoForm }
  | some p =>
    if (s.page p).hold.isSome then
      match k with
      | .reset => s.updPage p fun g => { g with hold := none, notice := none }
      | _ => s
    else (s.setNotice p none).actKey p k

end Sys2Proof.Machine
end

