-- ==== Sys2Proof/Machine/Scan.lean ====
section
/-! DEFINITION. The Scan Unit (file 06): judging frames, routing, candidates, deposits, chain steps, confirm-read. -/

namespace Sys2Proof.Machine

/-! ## The candidate -/

/-- R106: the frame's characters through the typing filter of a class, folded; absent when one is not admitted. -/
def filtered (cls : FieldClass) (signed : Bool) : List Byte → Option (List Byte)
  | [] => some []
  | b :: bs =>
    match admittedCode cls signed b, filtered cls signed bs with
    | some c, some cs => some (c :: cs)
    | _, _ => none

/-- R106, R107, R87: the cells that a frame would stand as in a field; absent when it is refused. -/
def candidateCells (f : Field) (characters : List Byte) : Option (List Byte) :=
  match f.entry with
  | none => none
  | some e =>
    if f.length < characters.length then none
    else
      match filtered e.cls e.signed characters with
      | none => none
      | some folded =>
        match exitCheck e f.length (folded ++ List.replicate (f.length - folded.length) 0x00#8) with
        | .pass cells => some cells
        | .fail _ => none

/-! ## Deposits and chains -/

/-- R109 steps 1 and 2: chain c after a deposit into its member at position k; the count has not yet been reloaded. -/
def Chain.stepped (c : Chain) (k : Nat) : Chain :=
  { c with index := (k + 1) % c.members.length, remaining := c.remaining - 1 }

/-- R110: a chain's action on the active page. -/
def State.chainAction (s : State) (p : PageNum) (c : ChainId) (action : Action) : State :=
  match action with
  | .nothing => s
  | .attn => s.raiseAttention p (.chain c)
  | .send => s.send p 13

/-- R109: a deposit into the member at position k of chain c steps it, taking its action when the remaining count reaches
zero and reloading the count whatever the action's outcome. -/
def State.stepChain (s : State) (p : PageNum) (c : ChainId) (k : Nat) : State :=
  let s := s.updPage p fun g => g.updChain c (·.stepped k)
  match (s.page p).chains[c.val] with
  | some chain =>
    if chain.remaining = 0 then
      (s.chainAction p c chain.action).updPage p fun g =>
        g.updChain c fun ch => { ch with remaining := ch.count }
    else s
  | none => s

/-- R111: the follow move after a deposit into a field, when the page is still ACTIVE and outside error hold. -/
def State.followMove (s : State) (p : PageNum) (f : Field) : State :=
  if s.active = some p ∧ (s.page p).hold = none then s.moveCursor p ((s.page p).nextEntry f.start) false else s

/-- R108: a deposit of the cells of a passing candidate into a field of the active page. -/
def State.deposit (s : State) (p : PageNum) (f : Field) (cells : List Byte) : State :=
  let s := s.updPage p fun g =>
    { ({ g with cells := g.cells.writeRun f.start cells }.updField f.number (·.deposited)) with notice := none }
  let s := s.answerScan .ack
  match (s.page p).memberOf f.number with
  | none => s
  | some (c, k) =>
    let follow := ((s.page p).chains[c.val]).any (·.follow)
    let s := s.stepChain p c k
    if follow then s.followMove p f else s

/-! ## Frames -/

/-- A frame of the active page refused with S-REJECT (R105 to R107). -/
def State.rejectScan (s : State) (p : PageNum) : State := (s.answerScan .nakReject).setNotice p (some .sReject)

/-- R112: a first read is held for confirmation. -/
def State.awaitConfirm (s : State) (p : PageNum) (f : Field) (characters : List Byte) : State :=
  let s := { s with
    scan.confirm := some { characters := characters, page := p, field := f.number }
    scan.window := some (s.interp.confirmWindow * 100) }
  (s.answerScan .ack).setNotice p (some .sAgain)

/-- R106, R107: a frame with its target: refused, held for confirmation, or deposited. -/
def State.takeRead (s : State) (p : PageNum) (f : Field) (confirming : Bool) (characters : List Byte) : State :=
  match candidateCells f characters with
  | none => s.rejectScan p
  | some cells =>
    if f.entry.any (·.doubleRead) && !confirming then s.awaitConfirm p f characters else s.deposit p f cells

/-- R105 steps 3 and 4: the member at the current chain's index, or the cursor's ENTRY field that admits scans. -/
def Page.scanTarget (g : Page) : Option Field :=
  match g.current.bind fun c => g.chains[c.val] with
  | some chain => (chain.members[chain.index]?).bind g.fieldNumbered
  | none => (g.entryAt g.cursor).filter fun f => f.entry.any (·.source ≠ .key)

/-- R105 steps 3 to 5. -/
def State.routeByPage (s : State) (p : PageNum) (characters : List Byte) : State :=
  match (s.page p).scanTarget with
  | some f => s.takeRead p f false characters
  | none => s.rejectScan p

/-- R105: routing of a frame of the active page. -/
def State.routeFrame (s : State) (p : PageNum) (characters : List Byte) : State :=
  match s.scan.confirm with
  | some r =>
    if r.characters = characters then
      match (s.page p).fieldNumbered r.field with
      | some f => s.dropConfirm.takeRead p f true characters
      | none => s.dropConfirm.rejectScan p
    else s.dropConfirm.routeByPage p characters
  | none => s.routeByPage p characters

/-- R101, R103: a frame is judged when its last byte has been handed over. -/
def State.judgeFrame (s : State) (length : Nat) (characters : List Byte) : State :=
  if length = 0 ∨ 64 < length then
    let s := s.answerScan .nakReject
    match s.active with
    | some p => if (s.page p).hold = none then s.setNotice p (some .sReject) else s
    | none => s
  else
    match s.active with
    | none => s.answerScan .nakReject
    | some p =>
      if (s.page p).hold.isSome then s.answerScan .nakBusy
      else if s.inhibited then
        match s.scan.buffer with
        | none => { s with scan.buffer := some characters }
        | some _ => s.answerScan .nakBusy
      else s.routeFrame p characters

end Sys2Proof.Machine
end

