-- ==== Sys2Proof/Machine/KeyInput.lean ====
section
/-! DEFINITION. The Key Input Unit (file 05): sorting the input port's codes, inhibit, type-ahead, and the release of held
input. -/

namespace Sys2Proof.Machine

/-- R93: a key other than RESET and ATTN that arrives during inhibit outside error hold. -/
def State.queueKey (s : State) (p : PageNum) (code : Byte) : State :=
  if !s.keys.typeAhead then s.setNotice p (some .wait)
  else if s.keys.queue.length < 16 then { s with keys.queue := s.keys.queue ++ [code] }
  else s.setNotice p (some .eFull)

/-- R90 to R94: a key event. -/
def State.takeKey (s : State) (code : Byte) : State :=
  match s.active with
  | none => s.editKey (keyOfByte code)
  | some p =>
    if s.inhibited then
      match keyOfByte code with
      | .reset => s.dropKeys.editKey .reset
      | .attn => s.editKey .attn
      | k => if (s.page p).hold.isSome then s.editKey k else s.queueKey p code
    else s.editKey (keyOfByte code)

/-- R89: a code of the input port. -/
def State.takeInputByte (s : State) (b : Byte) : State :=
  match s.keys.frame with
  | .absent => if b = 0x1D#8 then { s with keys.frame := .lengthAwaited } else s.takeKey b
  | .lengthAwaited =>
    if b = 0x00#8 then { s with keys.frame := .absent }.judgeFrame 0 []
    else { s with keys.frame := .counting b.toNat, scan.receiving := some { length := b, characters := [] } }
  | .counting n =>
    let r := s.scan.receiving.getD { length := byteOf n, characters := [] }
    let kept := if r.length.toNat ≤ 64 then r.characters ++ [b] else r.characters
    if n ≤ 1 then { s with keys.frame := .absent, scan.receiving := none }.judgeFrame r.length.toNat kept
    else { s with keys.frame := .counting (n - 1), scan.receiving := some { r with characters := kept } }

/-- The input port delivers codes one after another. -/
def State.takeInput (s : State) (codes : List Byte) : State := codes.foldl State.takeInputByte s

/-- R95, R96: the queued keys are taken oldest first; a hold or a page leaving ACTIVE empties the queue and so ends it. -/
def State.releaseKeys : Nat → State → State
  | 0, s => s
  | n + 1, s =>
    match s.keys.queue with
    | [] => s
    | code :: rest => State.releaseKeys n ({ s with keys.queue := rest }.editKey (keyOfByte code))

/-- R95, R104: the held scan, routed without the arrival tests. -/
def State.releaseScan (s : State) : State :=
  match s.active, s.scan.buffer with
  | some p, some characters => { s with scan.buffer := none }.routeFrame p characters
  | _, _ => s

/-- R95: at the end of inhibit the held scan is released, then the queued keys. -/
def State.releaseInput (s : State) : State := State.releaseKeys s.keys.queue.length s.releaseScan

end Sys2Proof.Machine
end

