-- ==== Sys2Proof/Machine/FieldOrders.lean ====
section
/-! DEFINITION. The field and chain orders as the Field Table carries them out (files 02 and 06): DEFINE, DROP, MARK,
UNMODIFY, CHAIN, UNCHAIN, SELECT. -/

namespace Sys2Proof.Machine

/-! ## DEFINE -/

/-- R183: bit i of a flags byte. -/
def flagBit (b : Byte) (i : Nat) : Bool := b.getLsbD i

/-- R33: the continuation operand, FFh for none. -/
def continuationOf (d : DefineOperands) : Option Nat :=
  if d.continuation = 0xFF#8 then none else some d.continuation.toNat

/-- R27, R28: the ENTRY items that DEFINE's operands give, absent when a code is outside its list (R31 check 1). The
AMOUNT-only items are disregarded for the other classes (R29). -/
def entryItemsOf (d : DefineOperands) : Option EntryItems :=
  match classOfByte d.cls, sourceOfByte d.source, checkOfByte d.check, actionOfByte d.exitOption with
  | some cls, some source, some check, some exitOption =>
    let amount := cls == .amount
    some {
      cls := cls
      source := source
      mandatory := flagBit d.flags 0
      mustFill := flagBit d.flags 1
      autoSkip := flagBit d.flags 2
      doubleRead := flagBit d.flags 3
      signed := amount && flagBit d.flags 4
      zeroFill := amount && flagBit d.flags 5
      check := check
      scale := if amount then d.scale.toNat else 0
      bound := if amount then d.bound.toNat else 0
      exitOption := exitOption
      continuation := continuationOf d
      touched := false
      checkError := none
      hostMark := none }
  | _, _, _, _ => none

/-- R31 check 2: the combination of class, check kind, continuation, length, scale and bound (R29). -/
def combinationHolds (e : EntryItems) (length : Nat) : Bool :=
  match e.cls with
  | .alpha => e.check == .noCheck
  | .code => (e.check == .noCheck || e.check == .m11) && e.continuation.isNone
  | .digits => e.continuation.isNone
  | .amount =>
    e.check == .noCheck && e.continuation.isNone && (2 ≤ length && length ≤ 20) &&
      (e.scale ≤ 4 && e.scale < length) && e.bound ≤ 999999999

/-- R30, R31 checks 1 and 2: the record that DEFINE's operands describe at a start position, absent on a failed check. -/
def fieldOf (d : DefineOperands) (start : Nat) : Option Field :=
  if 95 < d.number.toNat ∨ d.length.toNat = 0 ∨ 240 < d.length.toNat then none
  else
    match intensityOfByte d.presentation with
    | none => none
    | some intensity =>
      let record (entry : Option EntryItems) : Field :=
        { number := d.number.toNat, start := start, length := d.length.toNat, intensity := intensity,
          blink := flagBit d.presentation 2, modified := flagBit d.flags 6, entry := entry }
      match d.kind.toNat with
      | 0 => some (record none)
      | 1 =>
        match entryItemsOf d with
        | some e => if combinationHolds e d.length.toNat then some (record (some e)) else none
        | none => none
      | _ => none

/-- R33: the link conditions for a new field. -/
def Page.linkHolds (g : Page) (f : Field) : Bool :=
  match f.continuation with
  | none => true
  | some n =>
    match g.fieldNumbered n with
    | none => false
    | some target =>
      target.entry.any (·.cls = .alpha) && f.last < target.start && (g.linkSource n).isNone

/-- R31 checks 3 to 6 against the page. -/
def Page.admitsField (g : Page) (f : Field) : Bool :=
  f.last ≤ 1919 && (g.fieldNumbered f.number).isNone &&
    g.fields.all (fun h => h.last < f.start || f.last < h.start) && g.linkHolds f

/-- R32: a field enters the list at its place in positional order. -/
def insertField (f : Field) : List Field → List Field
  | [] => [f]
  | h :: hs => if f.start < h.start then f :: h :: hs else h :: insertField f hs

/-- What carrying out an order comes to (R124, R125, R127). -/
inductive OrderOutcome where
  | done (s : State)
  | skipped (s : State)
  | failed (status : Status) (s : State)
  deriving DecidableEq, Repr

/-- R30, R31: DEFINE in a page at the write position. -/
def State.orderDefine (s : State) (p : PageNum) (writePos : Nat) (d : DefineOperands) : OrderOutcome :=
  match fieldOf d writePos with
  | none => .failed .badField s
  | some f =>
    if !(s.page p).admitsField f then .failed .badField s
    else if s.freeRecords = 0 then .failed .pool s
    else .done (s.updPage p fun g => { g with fields := insertField f g.fields })

/-! ## DROP -/

/-- R36: a chain without the member at position k; absent when no member remains. -/
def Chain.without (c : Chain) (k : Nat) : Option Chain :=
  let members := c.members.eraseIdx k
  if members.isEmpty then none
  else
    let index := if k < c.index then c.index - 1 else c.index
    some { c with members := members, index := if members.length ≤ index then 0 else index }

/-- R36: a dropped member leaves its chain; a chain left with none is removed, and the current chain with it. -/
def Page.leaveChain (g : Page) (n : Nat) : Page :=
  match g.memberOf n with
  | none => g
  | some (c, k) =>
    let chain := g.chains[c.val].bind (·.without k)
    { g with
      chains := g.chains.set c.val chain
      current := if chain.isNone ∧ g.current = some c then none else g.current }

/-- R35 step 1: the link to the field is removed from its source; a link from it goes with the record. -/
def Page.unlink (g : Page) (n : Nat) : Page :=
  { g with
    fields := g.fields.map fun f =>
      f.mapEntry fun e => if e.continuation = some n then { e with continuation := none } else e }

/-- R35 steps 1, 2 and 4: a field of the page is dropped. -/
def Page.dropField (g : Page) (n : Nat) : Page :=
  let g := (g.unlink n).leaveChain n
  { g with fields := g.fields.filter (·.number != n) }

/-- R37: every field of the page is dropped, with every chain. -/
def Page.dropAll (g : Page) : Page :=
  { g with fields := [], chains := Vector.replicate 4 none, current := none }

/-- R35 step 3, R37, R114: the confirm-pending record goes when its target is dropped. -/
def State.dropConfirmAt (s : State) (p : PageNum) (dropped : Nat → Bool) : State :=
  match s.scan.confirm with
  | some r => if r.page = p ∧ dropped r.field then s.dropConfirm else s
  | none => s

/-- R35, R37: DROP. -/
def State.orderDrop (s : State) (p : PageNum) (operand : Byte) : OrderOutcome :=
  if operand = 0xFF#8 then .done ((s.updPage p (·.dropAll)).dropConfirmAt p fun _ => true)
  else
    let n := fieldOfByte operand
    match (s.page p).fieldNumbered n with
    | none => .skipped s
    | some _ => .done ((s.updPage p (·.dropField n)).dropConfirmAt p (· == n))

/-! ## MARK and UNMODIFY -/

/-- R40: MARK; the code is checked before the field number. -/
def State.orderMark (s : State) (p : PageNum) (operand code : Byte) : OrderOutcome :=
  if 99 < code.toNat then .failed .badOrder s
  else
    match (s.page p).fieldNumbered (fieldOfByte operand) with
    | some f =>
      if f.isEntry then .done (s.updPage p fun g => g.updEntry f.number (·.marked code.toNat)) else .skipped s
    | none => .skipped s

/-- R39: UNMODIFY. -/
def State.orderUnmodify (s : State) (p : PageNum) (operand : Byte) : OrderOutcome :=
  if operand = 0xFF#8 then .done (s.updPage p fun g => { g with fields := g.fields.map Field.unmodified })
  else
    match (s.page p).fieldNumbered (fieldOfByte operand) with
    | some f => .done (s.updPage p fun g => g.updField f.number Field.unmodified)
    | none => .skipped s

/-! ## Chains -/

/-- R117: the chain that well-formed operands describe, with its id; absent when they are malformed. R124 reads exactly m
member numbers. -/
def chainOf (operands : List Byte) : Option (ChainId × Chain) :=
  match operands with
  | id :: action :: count :: follow :: m :: members =>
    match chainOfByte id, actionOfByte action with
    | some c, some a =>
      if count.toNat = 0 ∨ m.toNat = 0 ∨ 16 < m.toNat ∨ members.length ≠ m.toNat then none
      else
        some (c, { action := a, count := count.toNat, remaining := count.toNat, follow := follow != 0x00#8,
                   members := members.map fieldOfByte, index := 0 })
    | _, _ => none
  | _ => none

/-- R117: a listed number names an ENTRY field of the page that admits scans and is no member of another chain. -/
def Page.admitsMember (g : Page) (c : ChainId) (n : Nat) : Bool :=
  ((g.fieldNumbered n).bind (·.entry)).any (·.source ≠ .key) &&
    allChains.all fun d => d == c || !(g.chains[d.val]).any (·.members.contains n)

/-- R117: CHAIN. -/
def State.orderChain (s : State) (p : PageNum) (operands : List Byte) : OrderOutcome :=
  match chainOf operands with
  | none => .failed .badOrder s
  | some (c, chain) =>
    let g := s.page p
    if chain.members.all (g.admitsMember c) && decide chain.members.Nodup then
      .done (s.updPage p fun g => { g with chains := g.chains.set c.val (some chain) })
    else .skipped s

/-- R118: UNCHAIN. -/
def State.orderUnchain (s : State) (p : PageNum) (operand : Byte) : OrderOutcome :=
  match chainOfByte operand with
  | none => .failed .badOrder s
  | some c =>
    match (s.page p).chains[c.val] with
    | none => .skipped s
    | some _ =>
      .done (s.updPage p fun g =>
        { g with chains := g.chains.set c.val none, current := if g.current = some c then none else g.current })

/-- R118: SELECT. -/
def State.orderSelect (s : State) (p : PageNum) (operand : Byte) : OrderOutcome :=
  if operand = 0xFF#8 then .done (s.updPage p fun g => { g with current := none })
  else
    match chainOfByte operand with
    | none => .failed .badOrder s
    | some c =>
      match (s.page p).chains[c.val] with
      | none => .skipped s
      | some _ => .done (s.updPage p fun g => { g with current := some c })

end Sys2Proof.Machine
end

