-- ==== Sys2Proof/Machine/Templates.lean ====
section
/-! DEFINITION. The Template Store (file 09): slots, recording, the checks of STORE, RECALL, ERASE, PAUSE and RESUME, the
erase unit and its attempts. -/

namespace Sys2Proof.Machine

/-- A slot of the state. -/
def State.slot (s : State) (n : SlotNum) : Slot := s.store.slots[n.val]

/-- The state with one slot changed. -/
def State.updSlot (s : State) (n : SlotNum) (f : Slot → Slot) : State :=
  { s with store.slots := s.store.slots.set n.val (f s.store.slots[n.val]) }

/-- The slot's state, changed. -/
def Slot.become (slot : Slot) (state : SlotState) : Slot := { slot with state := state }

/-- A kept state as a slot state (R174). -/
def KeptState.slotState : KeptState → SlotState
  | .blank => .blank
  | .filled => .filled
  | .failed => .failed

/-- A QUEUED slot. -/
def SlotState.isQueued : SlotState → Bool
  | .queued _ => true
  | .blank | .recording | .filled | .failed | .erasing | .held => false

/-- R161, R165: the array counts as busy while the unit is ERASING or PAUSING (R167). -/
def State.arrayBusy (s : State) : Bool := s.store.unit.state == .erasing || s.store.unit.state == .pausing

/-! ## STORE -/

/-- R161: the status a STORE header is refused with, if any, in the order of the checks. -/
def State.storeRefusal (s : State) (slot : Byte) : Option Status :=
  if s.arrayBusy then some .busy
  else
    match slotOfByte slot with
    | none => some .badSlot
    | some n =>
      match (s.slot n).state with
      | .recording | .queued _ | .erasing | .held => some .slotBusy
      | .filled | .failed => some .notBlank
      | .blank => none

/-- R161: an accepted STORE's slot begins RECORDING with the header's label. -/
def State.beginStore (s : State) (n : SlotNum) (label : List Byte) : State :=
  s.updSlot n fun _ => { state := .recording, content := [], used := 0, label := label }

/-- R162: the form check of an order that a STORE records; absent when it passes. -/
def formFailure (o : OrderCode) (operands : List Byte) : Option Status :=
  let b (i : Nat) : Byte := operands.getD i 0x00#8
  let count (n : Nat) : Option Status := if 1 ≤ n ∧ n ≤ 1920 then none else some .badPos
  match o with
  | .setpos | .cursor => if (positionOf (b 0) (b 1)).isSome then none else some .badPos
  | .repeatChar => count (countOf (b 1) (b 2))
  | .clear => count (countOf (b 0) (b 1))
  | .define => if (fieldOf (defineOf operands) 0).isSome then none else some .badField
  | .chain => if (chainOf operands).isSome then none else some .badOrder
  | .select => if b 0 = 0xFF#8 ∨ (chainOfByte (b 0)).isSome then none else some .badOrder
  | .text | .message => none
  | .drop | .mark | .unmodify | .unchain | .recall => some .badOrder

/-- R162, R163: an order of a STORE is checked for form and appended to the slot, as received. -/
def State.recordOrder (s : State) (n : SlotNum) (o : OrderCode) (operands : List Byte) : OrderOutcome :=
  match formFailure o operands with
  | some status => .failed status s
  | none =>
    let order := o.code :: operands
    if 3072 < (s.slot n).used + order.length then .failed .storeFull s
    else
      .done (s.updSlot n fun slot =>
        { slot with content := slot.content ++ [order], used := slot.used + order.length })

/-! ## RECALL -/

/-- R165: the status a RECALL is refused with, if any, in the order of the checks. -/
def State.recallRefusal (s : State) (slot : Byte) : Option Status :=
  match slotOfByte slot with
  | none => some .badSlot
  | some n =>
    match (s.slot n).state with
    | .blank | .failed => some .badSlot
    | .recording | .queued _ | .erasing | .held => some .slotBusy
    | .filled => if s.arrayBusy then some .busy else none

/-! ## ERASE -/

/-- R168: the refusal of an ERASE header whose count is 1–8, with its detail. -/
def State.eraseRefusal (s : State) (slots : List Byte) : Option (Status × Nat) :=
  match s.store.unit.state with
  | .erasing | .pausing | .paused => some (.busy, 0)
  | .idle | .gathering => (slots.find? (fun b => (slotOfByte b).isNone)).map fun b => (.badSlot, b.toNat)

/-- R168: the kept state with which a slot joins the batch; RECORDING is skipped, and a slot in erase work is in the batch
already. -/
def SlotState.kept : SlotState → Option KeptState
  | .blank => some .blank
  | .filled => some .filled
  | .failed => some .failed
  | .recording | .queued _ | .erasing | .held => none

/-- R168: what becomes of one listed slot; the flag tells that it was skipped. -/
def State.eraseSlot (s : State) (n : SlotNum) : State × Bool :=
  if s.store.unit.batch.contains n then (s, false)
  else
    match (s.slot n).state.kept with
    | none => (s, true)
    | some prior =>
      if 8 ≤ s.store.unit.batch.length then (s, true)
      else
        ({ s with store.unit.batch := s.store.unit.batch ++ [n] }.updSlot n (·.become (.queued prior)), false)

/-- R168: the listed slots in list order, with the first skipped slot number. -/
def State.eraseSlots : State → List SlotNum → State × Option Nat
  | s, [] => (s, none)
  | s, n :: ns =>
    let one := s.eraseSlot n
    let rest := State.eraseSlots one.1 ns
    (rest.1, if one.2 then some n.val else rest.2)

/-- R168: the acceptance acts on the unit: a run begins, or the window restarts with 20 ms. -/
def State.gather (s : State) : State :=
  match s.store.unit.state with
  | .idle => { s with store.unit.state := .gathering, store.unit.result := [], store.unit.window := some 20 }
  | .gathering => { s with store.unit.window := some 20 }
  | .erasing | .pausing | .paused => s

/-- R168: an accepted ERASE header, with the first skipped slot number. -/
def State.acceptErase (s : State) (slots : List Byte) : State × Option Nat :=
  let taken := s.eraseSlots (slots.filterMap slotOfByte)
  (taken.1.gather, taken.2)

/-! ## The erase unit -/

/-- R169, R170, R173: the lowest-numbered QUEUED slot. -/
def State.lowestQueued (s : State) : Option SlotNum := allSlots.find? fun n => (s.slot n).state.isQueued

/-- R169, R170, R173: a slot becomes the slot in work and its first attempt starts. -/
def State.startSlot (s : State) (n : SlotNum) : State :=
  { s with store.unit.state := .erasing, store.unit.work := some n, store.unit.attempts := 0 }.updSlot n
    (·.become .erasing)

/-- R170: the run ends: the unit is IDLE with an empty batch, and the run result goes to the Report Unit (R154). -/
def State.endRun (s : State) : State :=
  let result := s.store.unit.result
  { s with store.unit.state := .idle, store.unit.batch := [], store.unit.result := [] }.handResult result

/-- R170: a slot that an erase attempt has passed on: empty content, no used bytes, a label of eight spaces. -/
def erasedSlot : Slot := { state := .blank, content := [], used := 0, label := List.replicate 8 0x20#8 }

/-- R170: a passing attempt blanks the slot. -/
def State.passSlot (s : State) (n : SlotNum) : State :=
  { s with store.unit.work := none, store.unit.result := s.store.unit.result ++ [(n, EraseOutcome.blank)] }.updSlot n
    fun _ => erasedSlot

/-- R170: the fourth failed attempt gives the slot up; its content, used bytes and label stay (log entry 12). -/
def State.giveUpSlot (s : State) (n : SlotNum) : State :=
  { s with
    store.unit.work := none
    store.unit.attempts := 4
    store.unit.result := s.store.unit.result ++ [(n, EraseOutcome.failed)] }.updSlot n (·.become .failed)

/-- R170: after a slot is finished the lowest-numbered QUEUED slot starts, or the run ends. -/
def State.nextSlot (s : State) : State :=
  match s.lowestQueued with
  | some n => s.startSlot n
  | none => s.endRun

/-- R172: after the attempt has ended in PAUSING with the slot finished: PAUSED with work left, else the run ends. -/
def State.restUnit (s : State) : State :=
  match s.lowestQueued with
  | some _ => { s with store.unit.state := .paused }
  | none => s.endRun

/-- R172: the slot in work is HELD and the unit PAUSED, with the attempt count given. -/
def State.holdSlot (s : State) (n : SlotNum) (attempts : Nat) : State :=
  { s with store.unit.state := .paused, store.unit.attempts := attempts }.updSlot n (·.become .held)

/-- R170, R172: the running attempt ends. An ending the unit's state rules out changes nothing (log entry 8). -/
def State.endAttempt (s : State) (ending : Ending) : State :=
  match s.store.unit.work with
  | none => s
  | some n =>
    let fails := s.store.unit.attempts
    match s.store.unit.state, ending with
    | .erasing, .pass => (s.passSlot n).nextSlot
    | .erasing, .fail =>
      if fails < 3 then { s with store.unit.attempts := fails + 1 } else (s.giveUpSlot n).nextSlot
    | .pausing, .stopped => s.holdSlot n fails
    | .pausing, .pass => (s.passSlot n).restUnit
    | .pausing, .fail => if fails < 3 then s.holdSlot n (fails + 1) else (s.giveUpSlot n).restUnit
    | .erasing, .stopped => s
    | .idle, _ => s
    | .gathering, _ => s
    | .paused, _ => s

/-- R169: the gathering window expires. -/
def State.endGathering (s : State) : State :=
  match s.store.unit.state, s.lowestQueued with
  | .gathering, some n => { s with store.unit.window := none }.startSlot n
  | _, _ => s

/-- R171: PAUSE; absent when it is refused STATE. -/
def State.pauseUnit (s : State) : Option State :=
  match s.store.unit.state with
  | .idle => none
  | .gathering => some { s with store.unit.state := .paused, store.unit.window := none, store.unit.work := none }
  | .erasing => some { s with store.unit.state := .pausing }
  | .pausing | .paused => some s

/-- R173: RESUME; absent when it is refused STATE. -/
def State.resumeUnit (s : State) : Option State :=
  match s.store.unit.state with
  | .paused =>
    match s.store.unit.work, s.lowestQueued with
    | some n, _ => some ({ s with store.unit.state := .erasing }.updSlot n (·.become .erasing))
    | none, some n => some (s.startSlot n)
    | none, none => some s
  | .idle | .gathering | .erasing | .pausing => none

/-! ## The commands of the array and its window -/

/-- GATHERING_WINDOW_EXPIRY (R169). -/
def execGatheringWindowExpiry (s : State) : Host.Outcome State Fault Refusal := .next s.endGathering

/-- ATTEMPT_END (R170). -/
def execAttemptEnd (ending : Ending) (s : State) : Host.Outcome State Fault Refusal := .next (s.endAttempt ending)

/-- ATTEMPT_STOPPED (R172). -/
def execAttemptStopped (ending : Ending) (s : State) : Host.Outcome State Fault Refusal := .next (s.endAttempt ending)

end Sys2Proof.Machine
end

