-- ==== Sys2Proof/Machine/Reports.lean ====
section
/-! DEFINITION. The Report Unit (file 08): report bytes as they are generated, the taking of upstream bytes, the STATUS
report. -/

namespace Sys2Proof.Machine

/-! ## The STATUS report -/

/-- R153: what the STATUS report says of a page. -/
def Page.status (g : Page) : PageStatus :=
  { state := g.state, fieldCount := g.fields.length, serial := g.serial, overdue := g.overdue, unsent := g.unsent }

/-- R153: what the STATUS report says of a slot. -/
def Slot.status (slot : Slot) : SlotStatus := { state := slot.state, used := slot.used, label := slot.label }

/-- R153: the STATUS report of the FC412 as it stands. -/
def State.statusReport (s : State) : StatusReport :=
  { pages := allPages.map fun p => (s.page p).status
    ready := s.ready
    active := s.active
    freeRecords := s.freeRecords
    reports := s.reports.queue.length
    unit := s.store.unit.state
    slots := allSlots.map fun n => (s.slot n).status }

/-! ## Report bytes -/

/-- R148: a content byte: a null cell is sent as a space. -/
def sentByte (b : Byte) : Byte := if b = 0x00#8 then 0x20#8 else b

/-- R148: a field of an entry report: number and length as fixed, content as the page's cells stand. -/
def SentField.bytes (f : SentField) (cells : Cells) : List Byte :=
  byteOf f.number :: byteOf f.length :: (cells.readRun f.start f.length).map sentByte

/-- The body of an entry report over a page's cells (11.3). -/
def EntryReport.body (e : EntryReport) (cells : Cells) : List Byte :=
  [byteOf e.page.val, e.serial, byteOf e.sendKey, byteOf e.row, byteOf e.column, byteOf e.fields.length] ++
    e.fields.flatMap (·.bytes cells)

/-- A mark as 00h or 01h (11.3). -/
def markByte (b : Bool) : Byte := if b then 0x01#8 else 0x00#8

/-- The body of a STATUS report (11.3). -/
def StatusReport.body (r : StatusReport) : List Byte :=
  (r.pages.flatMap fun g => [g.state.code, byteOf g.fieldCount, g.serial, markByte g.overdue, markByte g.unsent]) ++
    byteOf r.ready.length :: r.ready.map (fun p => byteOf p.val) ++
    (match r.active with | some p => byteOf p.val | none => 0xFF#8) :: twoBytes r.freeRecords ++
    [byteOf r.reports, r.unit.code] ++
    r.slots.flatMap fun slot => slot.state.code :: twoBytes slot.used ++ slot.label

/-- The kind byte of a report (11.3). -/
def Report.kindByte : Report → Byte
  | .entry _ => 0x45#8
  | .attention _ _ _ => 0x41#8
  | .completion _ _ _ => 0x43#8
  | .status _ => 0x53#8
  | .eraseDone _ => 0x44#8
  | .start => 0x42#8

/-- The body of a report (11.3); an entry report's content is read from its page as it stands (R148). -/
def State.reportBody (s : State) : Report → List Byte
  | .entry e => e.body (s.page e.page).cells
  | .attention p cause serial => byteOf p.val :: cause.codes ++ [serial]
  | .completion tag status detail => [tag, status.code, byteOf detail]
  | .status body => body.body
  | .eraseDone pairs => byteOf pairs.length :: pairs.flatMap fun q => [byteOf q.1.val, q.2.code]
  | .start => []

/-- R146: kind byte, length of the body high byte first, body. -/
def State.reportBytes (s : State) (r : Report) : List Byte :=
  let body := s.reportBody r
  r.kindByte :: twoBytes body.length ++ body

/-! ## Taking bytes -/

/-- R149, R17, R20: the page's entry report has been taken whole; its reply timer starts with the limit in force. -/
def State.awaitReply (s : State) (p : PageNum) : State :=
  let timer : ReplyTimer := if s.interp.replyLimit = 0 then .notRunning else .remaining (s.interp.replyLimit * 1000)
  s.updPage p fun g => { g with state := .awaiting, timer := timer }

/-- R146: what follows a report's leaving. -/
def State.reportLeft (s : State) : Report → State
  | .entry e => s.awaitReply e.page
  | .attention _ _ _ | .completion _ _ _ | .status _ | .eraseDone _ | .start => s

/-- R146, R156, R158: the controller takes the next upstream byte. With none offered nothing is taken (log entry 10). -/
def State.takeReportByte (s : State) : State :=
  if 0 < s.reports.padding then
    { s with reports.padding := s.reports.padding - 1, outputs.stream := some 0x00#8 }
  else
    match s.reports.queue with
    | [] => { s with outputs.stream := none }
    | r :: rest =>
      let bytes := s.reportBytes r
      let s := { s with outputs.stream := bytes[s.reports.taken]? }
      if s.reports.taken + 1 < bytes.length then { s with reports.taken := s.reports.taken + 1 }
      else ({ s with reports.queue := rest, reports.taken := 0 }.reportLeft r).handFreed

/-- R158: the bytes of a partly taken head report become owed padding; the queue and the waiting notice are emptied.
Padding owed already stays owed (log entry 11). -/
def State.clearReports (s : State) : State :=
  let owed :=
    match s.reports.queue with
    | [] => 0
    | r :: _ => if s.reports.taken = 0 then 0 else (s.reportBytes r).length - s.reports.taken
  { s with reports := { queue := [], taken := 0, padding := s.reports.padding + owed, notice := none } }

/-- R184: the scanner decoder takes the next answer byte. With none offered nothing is taken (log entry 10). -/
def State.takeAnswerByte (s : State) : State :=
  match s.scan.answers with
  | [] => { s with outputs.input := none }
  | b :: rest => { s with scan.answers := rest, outputs.input := some b }

/-- REPORT_BYTE_TAKEN (R146). -/
def execReportByteTaken (s : State) : Host.Outcome State Fault Refusal := .next s.takeReportByte

/-- SCAN_ANSWER_BYTE_TAKEN (R184). -/
def execScanAnswerByteTaken (s : State) : Host.Outcome State Fault Refusal := .next s.takeAnswerByte

end Sys2Proof.Machine
end

