-- ==== Sys2Proof/Machine/Orders.lean ====
section
/-! DEFINITION. Carrying out orders (section 7.5): the write position, text orders, CURSOR, MESSAGE, RECALL's replay, and
the dispatch of an order whose operands have all been read. -/

namespace Sys2Proof.Machine

/-! ## The transaction record -/

/-- A change of the transaction record, where there is one. -/
def State.updTxn (s : State) (f : Transaction → Transaction) : State :=
  { s with interp.txn := s.interp.txn.map f }

/-- R131: the write position set. -/
def State.setWritePos (s : State) (p : Nat) : State := s.updTxn fun t => { t with writePos := p }

/-- R125: an order (or a slot of an ERASE, R168) is skipped: PARTIAL, and the first skipped index is recorded. -/
def Transaction.skip (t : Transaction) (index : Nat) : Transaction :=
  { t with status := .someSkipped, firstSkipped := some (t.firstSkipped.getD index) }

/-- R125: the order just taken is skipped. -/
def State.skipOrder (s : State) : State := s.updTxn fun t => t.skip t.index

/-- R124: the order index increases by one, saturating at 255. -/
def nextIndex (index : Nat) : Nat := if index < 255 then index + 1 else 255

/-! ## Text orders -/

/-- R134: a cell the order would write lies in an ENTRY field of the page. -/
def Page.touchesEntry (g : Page) (position count : Nat) : Bool :=
  (List.range count).any fun i => (g.entryAt ((position + i) % 1920)).isSome

/-- R131 to R134: codes written from the write position on; in a POST the whole order is skipped when a cell lies in an
ENTRY field. The write position advances either way. -/
def State.writeText (s : State) (kind : Kind) (p : PageNum) (writePos : Nat) (codes : List Byte) : OrderOutcome :=
  let after := (writePos + codes.length) % 1920
  if kind = .post ∧ (s.page p).touchesEntry writePos codes.length then .skipped (s.setWritePos after)
  else .done ((s.updPage p fun g => { g with cells := g.cells.writeRun writePos codes }).setWritePos after)

/-- R133: a count of REPEAT or CLEAR is 1–1920. -/
def countHolds (n : Nat) : Bool := 1 ≤ n && n ≤ 1920

/-! ## Orders in a page -/

/-- Section 7.5: an order other than RECALL carried out in a page, from the write position. -/
def State.pageOrder (s : State) (kind : Kind) (p : PageNum) (writePos : Nat) (o : OrderCode) (operands : List Byte) :
    OrderOutcome :=
  let b (i : Nat) : Byte := operands.getD i 0x00#8
  match o with
  | .setpos =>
    match positionOf (b 0) (b 1) with
    | some position => .done (s.setWritePos position)
    | none => .failed .badPos s
  | .text => s.writeText kind p writePos ((operands.drop 1).map substituted)
  | .repeatChar =>
    if countHolds (countOf (b 1) (b 2)) then
      s.writeText kind p writePos (List.replicate (countOf (b 1) (b 2)) (substituted (b 0)))
    else .failed .badPos s
  | .clear =>
    if countHolds (countOf (b 0) (b 1)) then
      s.writeText kind p writePos (List.replicate (countOf (b 0) (b 1)) 0x00#8)
    else .failed .badPos s
  | .define => s.orderDefine p writePos (defineOf operands)
  | .drop => s.orderDrop p (b 0)
  | .cursor =>
    match positionOf (b 0) (b 1) with
    | some position => .done (s.updPage p fun g => { g with cursor := position })
    | none => .failed .badPos s
  | .message => .done (s.updPage p fun g => { g with message := (operands.drop 1).map substituted })
  | .mark => s.orderMark p (b 0) (b 1)
  | .unmodify => s.orderUnmodify p (b 0)
  | .chain => s.orderChain p operands
  | .unchain => s.orderUnchain p (b 0)
  | .select => s.orderSelect p (b 0)
  | .recall => .failed .badOrder s

/-! ## RECALL -/

/-- R166: the recorded orders are carried out one after another as orders of the LOAD, all with the RECALL's order index;
a skipped one leaves the replay running, a failing one ends it. -/
def State.replay (p : PageNum) : State → List (List Byte) → OrderOutcome
  | s, [] => .done s
  | s, [] :: rest => State.replay p s rest
  | s, (code :: operands) :: rest =>
    match orderOfByte code, s.interp.txn with
    | some o, some t =>
      match s.pageOrder .load p t.writePos o operands with
      | .done s' => State.replay p s' rest
      | .skipped s' => State.replay p s'.skipOrder rest
      | .failed status s' => .failed status s'
    | _, _ => State.replay p s rest

/-- R139, R165, R166: RECALL, which only a LOAD allows, as its first order. -/
def State.orderRecall (s : State) (p : PageNum) (index : Nat) (slot : Byte) : OrderOutcome :=
  if index ≠ 1 then .failed .badOrder s
  else
    match s.recallRefusal slot, slotOfByte slot with
    | some status, _ => .failed status s
    | none, some n => State.replay p s (s.slot n).content
    | none, none => .failed .badSlot s

/-- R124, R162: an order whose operands have all been read is carried out, or recorded in a STORE. -/
def State.carryOut (s : State) (t : Transaction) (o : OrderCode) (operands : List Byte) : OrderOutcome :=
  match t.kind, t.page with
  | some .store, _ =>
    match slotOfByte (t.operands.getD 0 0x00#8) with
    | some n => s.recordOrder n o operands
    | none => .failed .badSlot s
  | some kind, some p =>
    if o = .recall then s.orderRecall p t.index (operands.getD 0 0x00#8)
    else s.pageOrder kind p t.writePos o operands
  | _, _ => .failed .badOrder s

end Sys2Proof.Machine
end

