-- ==== Sys2Proof/Machine/Stream.lean ====
section
/-! DEFINITION. The Order Interpreter (file 07): framing, header checks, taking orders, END, abort, skipping, and the
stream-port commands. -/

namespace Sys2Proof.Machine

/-! ## Ends of transactions -/

/-- R127: the kind's abort effects. -/
def State.abortEffects (s : State) (t : Transaction) : State :=
  match t.kind, t.page with
  | some .load, some p => s.updPage p (·.released)
  | some .store, _ =>
    match slotOfByte (t.operands.getD 0 0x00#8) with
    | some n => s.updSlot n (·.become .failed)
    | none => s
  | _, _ => s

/-- R8: the transaction-in-flight mark of the page a transaction names is cleared. -/
def State.clearMark (s : State) (t : Transaction) : State :=
  match t.page with
  | some p => s.updPage p fun g => { g with inFlight := false }
  | none => s

/-- R126 and R127 step 3: the record is closed, the page's mark cleared and, when that ends an inhibit, the held input
released (R95); the interpreter enters its next state. -/
def State.closeTransaction (s : State) (t : Transaction) (next : InterpState) : State :=
  let inhibited := s.inhibited
  let s := { s with interp.txn := none, interp.state := next }.clearMark t
  if inhibited then s.releaseInput else s

/-- R121: START opens a transaction record. -/
def State.openTransaction (s : State) : State :=
  { s with interp.txn := some .opened, interp.state := .header }

/-- R127: abort with a status and a detail. -/
def State.abort (s : State) (t : Transaction) (status : Status) (detail : Nat) (next : InterpState) : State :=
  ((s.abortEffects t).answer (.completion t.tag status detail)).closeTransaction t next

/-- R123: a refused header: nothing is executed, the completion report is queued, the interpreter enters SKIPPING. -/
def State.refuse (s : State) (t : Transaction) (status : Status) (detail : Nat) : State :=
  { s.answer (.completion t.tag status detail) with interp.txn := none, interp.state := .skipping }

/-! ## Headers -/

/-- R9, R10, R11, R12: the page state check of a header; absent when it passes. -/
def Page.headerRefusal (g : Page) (k : Kind) (serial : Byte) : Option Status :=
  match k with
  | .load => if g.state = .free then none else some .state
  | .amend => if g.state = .ready ∨ g.state = .active ∨ g.state = .awaiting then none else some .state
  | .post => if g.state = .free then some .state else none
  | .reopen | .close =>
    if g.state = .awaiting then (if serial = g.serial then none else some .stale)
    else if g.overdue then some .late else some .state
  | .restart | .setup | .query | .store | .erase | .pause | .resume => none

/-- R123: the interpreter enters ORDERS with the accepted header's record. -/
def State.accept (s : State) (t : Transaction) : State :=
  { s with interp.txn := some t, interp.state := .orders }

/-- R8, R9, R123: an accepted header that names a page sets its mark; a LOAD makes its page LOADING. -/
def State.acceptOnPage (s : State) (t : Transaction) (k : Kind) (p : PageNum) : State :=
  (s.accept t).updPage p fun g =>
    { g with inFlight := true, state := if k = .load then .loading else g.state }

/-- R123: the checks of a complete header, in order, and its acceptance. -/
def State.judgeHeader (s : State) (t : Transaction) : State :=
  let operand (i : Nat) : Byte := t.operands.getD i 0x00#8
  match t.kind with
  | none => s.refuse t .badOrder 0
  | some k =>
    match k with
    | .load | .amend | .post | .reopen | .close =>
      match t.page with
      | none => s.refuse t .badPage 0
      | some p =>
        match (s.page p).headerRefusal k (operand 0) with
        | some status => s.refuse t status 0
        | none => s.acceptOnPage t k p
    | .restart | .setup | .query => s.accept t
    | .store =>
      match s.storeRefusal (operand 0), slotOfByte (operand 0) with
      | some status, _ => s.refuse t status (operand 0).toNat
      | none, some n => (s.beginStore n (t.operands.drop 1)).accept t
      | none, none => s.refuse t .badSlot (operand 0).toNat
    | .erase =>
      if (operand 0).toNat = 0 ∨ 8 < (operand 0).toNat then s.refuse t .badOrder 0
      else
        match s.eraseRefusal (t.operands.drop 1) with
        | some (status, detail) => s.refuse t status detail
        | none =>
          let taken := s.acceptErase (t.operands.drop 1)
          match taken.2 with
          | none => taken.1.accept t
          | some slot => taken.1.accept (t.skip slot)
    | .pause =>
      match s.pauseUnit with
      | none => s.refuse t .state 0
      | some s' => s'.accept t
    | .resume =>
      match s.resumeUnit with
      | none => s.refuse t .state 0
      | some s' => s'.accept t

/-! ## END -/

/-- R13, R22: an AWAITING page returns to the head of the ready queue, its timer absent, and promotion follows. -/
def State.returnToHead (s : State) (p : PageNum) (f : Page → Page) : State :=
  let s := s.updPage p fun g => f { g with state := .ready, timer := .absent }
  { s with ready := p :: s.ready }.promote

/-- R9: a LOAD's page becomes READY at the tail of the ready queue, and promotion follows. -/
def State.loadEnd (s : State) (p : PageNum) : State :=
  let s := s.updPage p fun g => { g with state := .ready }
  { s with ready := s.ready ++ [p] }.promote

/-- R115, R140: the confirm window operand clamped to 1–50. -/
def clampWindow (b : Byte) : Nat := if b.toNat = 0 then 1 else if 50 < b.toNat then 50 else b.toNat

/-- R140: the settings are applied. -/
def State.applySetup (s : State) (replyLimit confirmWindow typeAhead : Byte) : State :=
  { s with
    interp.replyLimit := replyLimit.toNat
    interp.confirmWindow := clampWindow confirmWindow
    keys.typeAhead := typeAhead != 0x00#8 }

/-- R15, R141: RESTART's resets. The held scan is answered NAK-BUSY; settings, Template Store, a frame in progress and
answer bytes stay. -/
def State.restartEnd (s : State) : State :=
  { s.clearReports.refuseHeld.dropConfirm.dropKeys with
    pages := Vector.replicate 6 .blank
    ready := []
    active := none
    noPage := none }

/-- R126 step 1: the kind's END effects. -/
def State.endEffects (s : State) (t : Transaction) : State :=
  let operand (i : Nat) : Byte := t.operands.getD i 0x00#8
  match t.kind, t.page with
  | some .load, some p => s.loadEnd p
  | some .reopen, some p => s.returnToHead p id
  | some .close, some p => s.updPage p (·.released)
  | some .setup, _ => s.applySetup (operand 0) (operand 1) (operand 2)
  | some .restart, _ => s.restartEnd
  | some .store, _ =>
    match slotOfByte (operand 0) with
    | some n => s.updSlot n (·.become .filled)
    | none => s
  | _, _ => s

/-- R126 step 2: the answer at END: the STATUS report of a QUERY, else the completion report. -/
def State.endReport (s : State) (t : Transaction) : Report :=
  match t.kind with
  | some .query => .status s.statusReport
  | _ => .completion t.tag t.status (t.firstSkipped.getD 0)

/-- R126: END. -/
def State.reachEnd (s : State) (t : Transaction) : State :=
  let s := s.endEffects t
  (s.answer (s.endReport t)).closeTransaction t .between

/-! ## Taking bytes -/

/-- R122: a header byte. -/
def State.takeHeaderByte (s : State) (t : Transaction) (b : Byte) : State :=
  let t := { t with header := t.header ++ [b] }
  if headerComplete t.header then s.judgeHeader t else { s with interp.txn := some t }

/-- R124, R125, R127: what an order came to. -/
def State.settleOrder (t : Transaction) : OrderOutcome → State
  | .done s => s.updTxn fun r => { r with order := [] }
  | .skipped s => s.skipOrder.updTxn fun r => { r with order := [] }
  | .failed status s => s.abort t status t.index .skipping

/-- R124: a byte in the order-code position. -/
def State.takeOrderCode (s : State) (t : Transaction) (b : Byte) : State :=
  if b = 0x03#8 then s.reachEnd t
  else if b = 0x02#8 then (s.abort t .aborted (nextIndex t.index) .header).openTransaction
  else
    let t := { t with index := nextIndex t.index }
    match orderOfByte b, t.kind with
    | some o, some k =>
      if o.allowedIn k then { s with interp.txn := some { t with order := [b] } }
      else s.abort t .badOrder t.index .skipping
    | _, _ => s.abort t .badOrder t.index .skipping

/-- R124: an operand byte of the order whose code byte was taken. -/
def State.takeOperand (s : State) (t : Transaction) (b : Byte) : State :=
  let t := { t with order := t.order ++ [b] }
  match orderOfByte (t.order.headD 0x00#8) with
  | none => s
  | some o =>
    match operandsRead o (t.order.drop 1) with
    | .more => { s with interp.txn := some t }
    | .refused status => s.abort t status t.index .skipping
    | .complete => State.settleOrder t ({ s with interp.txn := some t }.carryOut t o (t.order.drop 1))

/-- R121 to R128: the Order Interpreter takes a byte. -/
def State.interpretByte (s : State) (b : Byte) : State :=
  match s.interp.state, s.interp.txn with
  | .between, _ => if b = 0x02#8 then s.openTransaction else s
  | .skipping, _ =>
    if b = 0x03#8 then { s with interp.state := .between }
    else if b = 0x02#8 then s.openTransaction else s
  | .header, some t => s.takeHeaderByte t b
  | .orders, some t => if t.order = [] then s.takeOrderCode t b else s.takeOperand t b
  | .header, none => s
  | .orders, none => s

/-- R130: while the stall lasts the stream port takes no downstream byte (log entry 5). -/
def State.takeStreamByte (s : State) (b : Byte) : State :=
  if s.interp.stalled.isSome then s else s.interpretByte b

/-- The stream port delivers bytes one after another. -/
def State.takeStream (s : State) (bytes : List Byte) : State := bytes.foldl State.takeStreamByte s

/-! ## The framing commands -/

/-- START (R121). -/
def execStart (s : State) : Host.Outcome State Fault Refusal := .next (s.takeStream [0x02#8])

/-- STRAY_BYTE (R121). -/
def execStrayByte (b : Byte) (s : State) : Host.Outcome State Fault Refusal := .next (s.takeStream [b])

/-- SKIPPED_BYTE (R128). -/
def execSkippedByte (b : Byte) (s : State) : Host.Outcome State Fault Refusal := .next (s.takeStream [b])

/-- BAD_ORDER_CODE (R124). -/
def execBadOrderCode (b : Byte) (s : State) : Host.Outcome State Fault Refusal := .next (s.takeStream [b])

/-- ABORTED (R124). -/
def execAborted (s : State) : Host.Outcome State Fault Refusal := .next (s.takeStream [0x02#8])

/-- END (R126). -/
def execEnd (s : State) : Host.Outcome State Fault Refusal := .next (s.takeStream [0x03#8])

/-! ## The header commands -/

/-- LOAD (R9). -/
def execLoad (page tag : Byte) (s : State) : Host.Outcome State Fault Refusal :=
  .next (s.takeStream [Kind.load.code, page, tag])

/-- AMEND (R10). -/
def execAmend (page tag : Byte) (s : State) : Host.Outcome State Fault Refusal :=
  .next (s.takeStream [Kind.amend.code, page, tag])

/-- POST (R11). -/
def execPost (page tag : Byte) (s : State) : Host.Outcome State Fault Refusal :=
  .next (s.takeStream [Kind.post.code, page, tag])

/-- REOPEN (R13). -/
def execReopen (page tag serial : Byte) (s : State) : Host.Outcome State Fault Refusal :=
  .next (s.takeStream [Kind.reopen.code, page, tag, serial])

/-- CLOSE (R14). -/
def execClose (page tag serial : Byte) (s : State) : Host.Outcome State Fault Refusal :=
  .next (s.takeStream [Kind.close.code, page, tag, serial])

/-- RESTART (R141). -/
def execRestart (page tag : Byte) (s : State) : Host.Outcome State Fault Refusal :=
  .next (s.takeStream [Kind.restart.code, page, tag])

/-- SETUP (R140). -/
def execSetup (page tag replyLimit confirmWindow typeAhead : Byte) (s : State) : Host.Outcome State Fault Refusal :=
  .next (s.takeStream [Kind.setup.code, page, tag, replyLimit, confirmWindow, typeAhead])

/-- QUERY (R142). -/
def execQuery (page tag : Byte) (s : State) : Host.Outcome State Fault Refusal :=
  .next (s.takeStream [Kind.query.code, page, tag])

/-- STORE (R161). -/
def execStore (page tag slot : Byte) (label : List Byte) (s : State) : Host.Outcome State Fault Refusal :=
  .next (s.takeStream (Kind.store.code :: page :: tag :: slot :: label))

/-- ERASE (R168). -/
def execErase (page tag count : Byte) (slots : List Byte) (s : State) : Host.Outcome State Fault Refusal :=
  .next (s.takeStream (Kind.erase.code :: page :: tag :: count :: slots))

/-- PAUSE (R171). -/
def execPause (page tag : Byte) (s : State) : Host.Outcome State Fault Refusal :=
  .next (s.takeStream [Kind.pause.code, page, tag])

/-- RESUME (R173). -/
def execResume (page tag : Byte) (s : State) : Host.Outcome State Fault Refusal :=
  .next (s.takeStream [Kind.resume.code, page, tag])

/-- KIND_NAMES_NO_KIND (R123). -/
def execKindNamesNoKind (kind page tag : Byte) (s : State) : Host.Outcome State Fault Refusal :=
  .next (s.takeStream [kind, page, tag])

/-! ## The order commands -/

/-- SETPOS (R131). -/
def execSetpos (row column : Byte) (s : State) : Host.Outcome State Fault Refusal :=
  .next (s.takeStream [OrderCode.setpos.code, row, column])

/-- TEXT (R132). -/
def execText (n : Byte) (bytes : List Byte) (s : State) : Host.Outcome State Fault Refusal :=
  .next (s.takeStream (OrderCode.text.code :: n :: bytes))

/-- REPEAT (R133). -/
def execRepeatChar (character : Byte) (count : BitVec 16) (s : State) : Host.Outcome State Fault Refusal :=
  .next (s.takeStream [OrderCode.repeatChar.code, character, count.extractLsb' 8 8, count.extractLsb' 0 8])

/-- CLEAR (R133). -/
def execClear (count : BitVec 16) (s : State) : Host.Outcome State Fault Refusal :=
  .next (s.takeStream [OrderCode.clear.code, count.extractLsb' 8 8, count.extractLsb' 0 8])

/-- DEFINE (R30). -/
def execDefine (d : DefineOperands) (s : State) : Host.Outcome State Fault Refusal :=
  .next (s.takeStream (OrderCode.define.code :: defineBytes d))

/-- DROP (R35). -/
def execDrop (number : Byte) (s : State) : Host.Outcome State Fault Refusal :=
  .next (s.takeStream [OrderCode.drop.code, number])

/-- CURSOR (R137). -/
def execCursor (row column : Byte) (s : State) : Host.Outcome State Fault Refusal :=
  .next (s.takeStream [OrderCode.cursor.code, row, column])

/-- MESSAGE (R138). -/
def execMessage (n : Byte) (bytes : List Byte) (s : State) : Host.Outcome State Fault Refusal :=
  .next (s.takeStream (OrderCode.message.code :: n :: bytes))

/-- MARK (R40). -/
def execMark (number code : Byte) (s : State) : Host.Outcome State Fault Refusal :=
  .next (s.takeStream [OrderCode.mark.code, number, code])

/-- UNMODIFY (R39). -/
def execUnmodify (number : Byte) (s : State) : Host.Outcome State Fault Refusal :=
  .next (s.takeStream [OrderCode.unmodify.code, number])

/-- CHAIN (R117). -/
def execChain (id action count follow m : Byte) (members : List Byte) (s : State) :
    Host.Outcome State Fault Refusal :=
  .next (s.takeStream (OrderCode.chain.code :: id :: action :: count :: follow :: m :: members))

/-- UNCHAIN (R118). -/
def execUnchain (id : Byte) (s : State) : Host.Outcome State Fault Refusal :=
  .next (s.takeStream [OrderCode.unchain.code, id])

/-- SELECT (R118). -/
def execSelect (id : Byte) (s : State) : Host.Outcome State Fault Refusal :=
  .next (s.takeStream [OrderCode.select.code, id])

/-- RECALL (R165). -/
def execRecall (slot : Byte) (s : State) : Host.Outcome State Fault Refusal :=
  .next (s.takeStream [OrderCode.recall.code, slot])

end Sys2Proof.Machine
end

