-- ==== Sys2Proof/Machine/Keys.lean ====
section
/-! DEFINITION. The input-port commands: each key is its code (11.4), a scan frame its marker, length byte and
characters. -/

namespace Sys2Proof.Machine

/-- LEFT (R47). -/
def execLeft (s : State) : Host.Outcome State Fault Refusal := .next (s.takeInput [0x80#8])

/-- RIGHT (R47). -/
def execRight (s : State) : Host.Outcome State Fault Refusal := .next (s.takeInput [0x81#8])

/-- UP (R47). -/
def execUp (s : State) : Host.Outcome State Fault Refusal := .next (s.takeInput [0x82#8])

/-- DOWN (R47). -/
def execDown (s : State) : Host.Outcome State Fault Refusal := .next (s.takeInput [0x83#8])

/-- TAB (R48). -/
def execTab (s : State) : Host.Outcome State Fault Refusal := .next (s.takeInput [0x84#8])

/-- BACKTAB (R49). -/
def execBacktab (s : State) : Host.Outcome State Fault Refusal := .next (s.takeInput [0x85#8])

/-- HOME (R50). -/
def execHome (s : State) : Host.Outcome State Fault Refusal := .next (s.takeInput [0x86#8])

/-- NEWLINE (R50). -/
def execNewline (s : State) : Host.Outcome State Fault Refusal := .next (s.takeInput [0x87#8])

/-- INSERT (R64). -/
def execInsert (s : State) : Host.Outcome State Fault Refusal := .next (s.takeInput [0x88#8])

/-- DELETE (R60). -/
def execDelete (s : State) : Host.Outcome State Fault Refusal := .next (s.takeInput [0x89#8])

/-- BACKSPACE (R61). -/
def execBackspace (s : State) : Host.Outcome State Fault Refusal := .next (s.takeInput [0x8A#8])

/-- ERASE_EOF (R62). -/
def execEraseEof (s : State) : Host.Outcome State Fault Refusal := .next (s.takeInput [0x8B#8])

/-- CLEAR_FIELD (R63). -/
def execClearField (s : State) : Host.Outcome State Fault Refusal := .next (s.takeInput [0x8C#8])

/-- RESET (R66, R67). -/
def execReset (s : State) : Host.Outcome State Fault Refusal := .next (s.takeInput [0x8D#8])

/-- ENTER (R69). -/
def execEnter (s : State) : Host.Outcome State Fault Refusal := .next (s.takeInput [0x8E#8])

/-- ATTN (R68). -/
def execAttn (s : State) : Host.Outcome State Fault Refusal := .next (s.takeInput [0x8F#8])

/-- PARK (R7). -/
def execPark (s : State) : Host.Outcome State Fault Refusal := .next (s.takeInput [0x90#8])

/-- F1_TO_F12 (R69): the codes 91h–9Ch. -/
def execFunctionKey (k : Fin 12) (s : State) : Host.Outcome State Fault Refusal :=
  .next (s.takeInput [byteOf (0x91 + k.val)])

/-- CHARACTER_KEY (R56). -/
def execCharacterKey (code : Byte) (s : State) : Host.Outcome State Fault Refusal := .next (s.takeInput [code])

/-- UNKNOWN_KEY (R44). -/
def execUnknownKey (code : Byte) (s : State) : Host.Outcome State Fault Refusal := .next (s.takeInput [code])

/-- SCAN_FRAME (R101, R103). -/
def execScanFrame (length : Byte) (characters : List Byte) (s : State) : Host.Outcome State Fault Refusal :=
  .next (s.takeInput (0x1D#8 :: length :: characters))

end Sys2Proof.Machine
end

