-- ==== Sys2Proof/Machine/Display.lean ====
section
/-! DEFINITION. The Presentation Unit (file 10): rows, the operator line, the cursor. It holds no state (R176). -/

namespace Sys2Proof.Machine

/-- A character with no attributes. -/
def plain (b : Byte) : Shown := { character := b, underline := false, bright := false, blink := false, reverse := false }

/-- R177: an ENTRY field that carries a check-error mark or a host mark. -/
def Field.reversed (f : Field) : Bool := f.entry.any fun e => e.checkError.isSome || e.hostMark.isSome

/-- R177: a cell as it is presented, by its code and the field that holds it. -/
def shownCell (code : Byte) (field : Option Field) : Shown :=
  let character := if code = 0x00#8 then 0x20#8 else code
  match field with
  | none => plain character
  | some f =>
    if f.intensity = .hidden then plain 0x20#8
    else
      { character := character, underline := f.isEntry, bright := f.intensity == .bright, blink := f.blink,
        reverse := f.reversed }

/-- Text padded with spaces to a width (section 10.3). -/
def padded (width : Nat) (text : List Byte) : List Byte :=
  (text ++ List.replicate (width - text.length) 0x20#8).take width

/-- R179: the state word. -/
def State.stateWord (s : State) : String :=
  match s.active with
  | none => "NO FORM"
  | some p =>
    if s.inhibited then "WAIT"
    else if (s.page p).hold.isSome then "ERROR"
    else if s.scan.confirm.isSome then "SCAN"
    else if (s.page p).insert then "INSERT"
    else "READY"

/-- R179: the page and queue indicator. -/
def State.indicator (s : State) : List Byte :=
  match s.active with
  | none => ascii "P- Q0 "
  | some p => ascii "P" ++ [digitByte p.val] ++ ascii " Q" ++ [digitByte s.ready.length] ++ ascii " "

/-- R180: the host mark of the ENTRY field under the cursor, as H-nn. -/
def Page.hostMarkShown (g : Page) : List Byte :=
  match ((g.entryAt g.cursor).bind (·.entry)).bind (·.hostMark) with
  | some n => ascii "H-" ++ paddedDecimal 2 n
  | none => []

/-- R180: the notice area. -/
def State.noticeArea (s : State) : List Byte :=
  match s.active with
  | none => (s.noPage.map fun n => ascii n.shown).getD []
  | some p =>
    match (s.page p).notice with
    | some n => ascii n.shown
    | none => (s.page p).hostMarkShown

/-- R181: the message area. -/
def State.messageArea (s : State) : List Byte :=
  match s.active with
  | none => []
  | some p =>
    let g := s.page p
    if g.overdue then ascii "NO REPLY" else if g.unsent then ascii "UNSENT" else g.message

/-- R179: the operator line, row 24. -/
def State.operatorLine (s : State) : List Shown :=
  (padded 10 (ascii s.stateWord) ++ padded 6 s.indicator ++ padded 8 s.noticeArea ++ padded 56 s.messageArea).map plain

/-- R176, R177: the 80 presented cells of a row. -/
def State.shownRow (s : State) (row : Nat) : List Shown :=
  if row = 24 then s.operatorLine
  else
    match s.active with
    | some p =>
      if row < 24 then
        (List.range' (row * 80) 80).map fun a => shownCell ((s.page p).cells.read a) ((s.page p).fieldAt a)
      else List.replicate 80 (plain 0x20#8)
    | none => List.replicate 80 (plain 0x20#8)

/-- R178: the cursor's position and shape, or none. -/
def State.shownCursor (s : State) : Option ShownCursor :=
  s.active.map fun p =>
    let g := s.page p
    { row := g.cursor / 80, column := g.cursor % 80, shape := if g.insert then .bar else .block }

/-- ROW_REQUEST (R176): the answer stands on the display port; no block's state changes. -/
def execRowRequest (row : Byte) (s : State) : Host.Outcome State Fault Refusal :=
  .next { s with outputs.display := some (.row (s.shownRow row.toNat)) }

/-- CURSOR_REQUEST (R178): the answer stands on the display port; no block's state changes. -/
def execCursorRequest (s : State) : Host.Outcome State Fault Refusal :=
  .next { s with outputs.display := some (.cursor s.shownCursor) }

end Sys2Proof.Machine
end

