-- ==== Sys2Proof/Machine/Resets.lean ====
section
/-! DEFINITION. The reset line, the stream reset, the timers' expiries, and what passes while no command waits. -/

namespace Sys2Proof.Machine

/-! ## The reset line -/

/-- R174: a slot settles into a kept state. -/
def Slot.settled (slot : Slot) : Slot :=
  match slot.state with
  | .blank | .filled | .failed => slot
  | .recording | .erasing | .held => slot.become .failed
  | .queued prior => slot.become prior.slotState

/-- R174: every slot settles. -/
def State.settleSlots (s : State) : State := allSlots.foldl (fun s n => s.updSlot n (·.settled)) s

/-- R3, R43, R88, R100, R120, R144, R155, R167, R174, R184: the reset line; only the slots' contents, used bytes and labels
outlast it. The waiting commands and the count of free choices are the model's own (log entry 18). -/
def State.lineReset (s : State) : State :=
  { State.reset with
    store := { slots := s.settleSlots.store.slots, unit := .idle }
    choices := s.choices
    pending := s.pending }

/-- RESET_LINE (R3). -/
def execResetLine (s : State) : Host.Outcome State Fault Refusal := .next s.lineReset

/-! ## The stream reset -/

/-- R18, R157 step 3: a page that was SENDING becomes READY with its unsent mark. -/
def Page.unsentReturn (g : Page) : Page :=
  if g.state = .sending then { g with state := .ready, unsent := true } else g

/-- R5, R18: every SENDING page returns to the head of the ready queue, ascending, and promotion follows. -/
def State.returnSending (s : State) : State :=
  let lost := allPages.filter fun p => (s.page p).state = .sending
  let s := lost.foldl (fun s p => s.updPage p (·.unsentReturn)) s
  { s with ready := lost ++ s.ready }.promote

/-- R143, R157: the transaction in flight, if there is one: its record is open and its header was accepted. -/
def State.inFlightTxn (s : State) : Option Transaction := if s.interp.state = .orders then s.interp.txn else none

/-- R157 step 1: the abort effects of the transaction in flight, no report; a stalled report is discarded. -/
def State.cutShort (s : State) : State :=
  let s :=
    match s.inFlightTxn with
    | some t => s.abortEffects t
    | none => s
  { s with interp.stalled := none }

/-- R157 step 2: the report queue is emptied and no padding is owed. -/
def State.emptyReports (s : State) : State :=
  { s with reports.queue := [], reports.taken := 0, reports.padding := 0 }

/-- R143, R157 step 5: the interpreter waits in BETWEEN; the mark of the transaction cut short clears and held input is
released (R97). -/
def State.endCutShort (s : State) : State :=
  match s.inFlightTxn with
  | some t => s.closeTransaction t .between
  | none => { s with interp.txn := none, interp.state := .between }

/-- STREAM_RESET (R157, R18, R143), its five steps in order. -/
def execStreamReset (s : State) : Host.Outcome State Fault Refusal :=
  .next (State.handFreedTimes 8 s.cutShort.emptyReports.returnSending).endCutShort

/-! ## Expiries -/

/-- R20 to R22: an expiry is taken only in AWAITING with the timer running and not suspended. -/
def Page.timerRuns (g : Page) : Bool :=
  g.state == .awaiting && !g.inFlight &&
    match g.timer with
    | .remaining _ => true
    | .absent | .notRunning => false

/-- R22: a running reply timer reaches zero. -/
def State.expireReply (s : State) (p : PageNum) : State :=
  if (s.page p).timerRuns then s.returnToHead p fun g => { g with overdue := true } else s

/-- R114: the confirm window expires. -/
def State.expireConfirm (s : State) : State :=
  match s.scan.confirm with
  | none => s
  | some r =>
    let s := s.dropConfirm
    if (s.page r.page).hold = none then s.setNotice r.page (some .sRescan) else s

/-- REPLY_TIMER_EXPIRY (R22), whatever time the timer still held (log entry 7). -/
def execReplyTimerExpiry (page : PageNum) (s : State) : Host.Outcome State Fault Refusal := .next (s.expireReply page)

/-- CONFIRM_WINDOW_EXPIRY (R114), whatever time the window still held (log entry 7). -/
def execConfirmWindowExpiry (s : State) : Host.Outcome State Fault Refusal := .next s.expireConfirm

/-! ## Time, while no command waits (log entry 6) -/

/-- R20, R21: a running reply timer that is not suspended counts down one ms. -/
def Page.tick (g : Page) : Page :=
  match g.timer with
  | .remaining ms => if g.timerRuns then { g with timer := .remaining (ms - 1) } else g
  | .absent | .notRunning => g

/-- One ms passes for every running timer. -/
def State.tick (s : State) : State :=
  let s := allPages.foldl (fun s p => s.updPage p (·.tick)) s
  { s with
    scan.window := s.scan.window.map (· - 1)
    store.unit.window := s.store.unit.window.map (· - 1) }

/-- An expiry that stands due. -/
inductive Due where
  | reply (p : PageNum)
  | confirm
  | gathering
  deriving DecidableEq, Repr

/-- The expiries that stand due: timers running at zero. -/
def State.due (s : State) : List Due :=
  ((allPages.filter fun p => (s.page p).timerRuns && (s.page p).timer == .remaining 0).map Due.reply) ++
    (if s.scan.window = some 0 then [.confirm] else []) ++
    (if s.store.unit.window = some 0 then [.gathering] else [])

/-- An expiry that stood due is taken (R22, R114, R169). -/
def State.expire (s : State) : Due → State
  | .reply p => s.expireReply p
  | .confirm => s.expireConfirm
  | .gathering => s.endGathering

/-- With no command waiting: an expiry that stands due is taken, which one of several being a free value; with none due, one
ms passes. -/
def State.idle (s : State) : State :=
  match s.due with
  | [] => s.tick
  | [d] => s.expire d
  | d :: ds =>
    let s := { s with choices := s.choices + 1 }
    s.expire ((d :: ds).getD (Config.expiryChoice (s.choices - 1) % (ds.length + 1)) d)

end Sys2Proof.Machine
end

