-- ==== Sys2Proof/Machine/Dispatch.lean ====
section
/-! DEFINITION. exec: one arm per command, each a direct call of its meaning. -/

namespace Sys2Proof.Machine

def exec (i : Instr) (s : State) : Host.Outcome State Fault Refusal :=
  match i with
  | .resetLine => Sys2Proof.Machine.execResetLine s
  | .streamReset => Sys2Proof.Machine.execStreamReset s
  | .start => Sys2Proof.Machine.execStart s
  | .strayByte b => Sys2Proof.Machine.execStrayByte b s
  | .skippedByte b => Sys2Proof.Machine.execSkippedByte b s
  | .load page tag => Sys2Proof.Machine.execLoad page tag s
  | .amend page tag => Sys2Proof.Machine.execAmend page tag s
  | .post page tag => Sys2Proof.Machine.execPost page tag s
  | .reopen page tag serial => Sys2Proof.Machine.execReopen page tag serial s
  | .close page tag serial => Sys2Proof.Machine.execClose page tag serial s
  | .restart page tag => Sys2Proof.Machine.execRestart page tag s
  | .setup page tag replyLimit confirmWindow typeAhead => Sys2Proof.Machine.execSetup page tag replyLimit confirmWindow typeAhead s
  | .query page tag => Sys2Proof.Machine.execQuery page tag s
  | .store page tag slot label => Sys2Proof.Machine.execStore page tag slot label s
  | .erase page tag count slots => Sys2Proof.Machine.execErase page tag count slots s
  | .pause page tag => Sys2Proof.Machine.execPause page tag s
  | .resume page tag => Sys2Proof.Machine.execResume page tag s
  | .setpos row column => Sys2Proof.Machine.execSetpos row column s
  | .text n bytes => Sys2Proof.Machine.execText n bytes s
  | .repeatChar character count => Sys2Proof.Machine.execRepeatChar character count s
  | .clear count => Sys2Proof.Machine.execClear count s
  | .define d => Sys2Proof.Machine.execDefine d s
  | .drop number => Sys2Proof.Machine.execDrop number s
  | .cursor row column => Sys2Proof.Machine.execCursor row column s
  | .message n bytes => Sys2Proof.Machine.execMessage n bytes s
  | .mark number code => Sys2Proof.Machine.execMark number code s
  | .unmodify number => Sys2Proof.Machine.execUnmodify number s
  | .chain id action count follow m members => Sys2Proof.Machine.execChain id action count follow m members s
  | .unchain id => Sys2Proof.Machine.execUnchain id s
  | .select id => Sys2Proof.Machine.execSelect id s
  | .recall slot => Sys2Proof.Machine.execRecall slot s
  | .badOrderCode b => Sys2Proof.Machine.execBadOrderCode b s
  | .aborted => Sys2Proof.Machine.execAborted s
  | .endTransaction => Sys2Proof.Machine.execEnd s
  | .reportByteTaken => Sys2Proof.Machine.execReportByteTaken s
  | .left => Sys2Proof.Machine.execLeft s
  | .right => Sys2Proof.Machine.execRight s
  | .up => Sys2Proof.Machine.execUp s
  | .down => Sys2Proof.Machine.execDown s
  | .tab => Sys2Proof.Machine.execTab s
  | .backtab => Sys2Proof.Machine.execBacktab s
  | .home => Sys2Proof.Machine.execHome s
  | .newline => Sys2Proof.Machine.execNewline s
  | .insert => Sys2Proof.Machine.execInsert s
  | .characterKey code => Sys2Proof.Machine.execCharacterKey code s
  | .delete => Sys2Proof.Machine.execDelete s
  | .backspace => Sys2Proof.Machine.execBackspace s
  | .eraseEof => Sys2Proof.Machine.execEraseEof s
  | .clearField => Sys2Proof.Machine.execClearField s
  | .reset => Sys2Proof.Machine.execReset s
  | .attn => Sys2Proof.Machine.execAttn s
  | .park => Sys2Proof.Machine.execPark s
  | .enter => Sys2Proof.Machine.execEnter s
  | .functionKey k => Sys2Proof.Machine.execFunctionKey k s
  | .unknownKey code => Sys2Proof.Machine.execUnknownKey code s
  | .scanFrame length characters => Sys2Proof.Machine.execScanFrame length characters s
  | .scanAnswerByteTaken => Sys2Proof.Machine.execScanAnswerByteTaken s
  | .rowRequest row => Sys2Proof.Machine.execRowRequest row s
  | .cursorRequest => Sys2Proof.Machine.execCursorRequest s
  | .replyTimerExpiry page => Sys2Proof.Machine.execReplyTimerExpiry page s
  | .confirmWindowExpiry => Sys2Proof.Machine.execConfirmWindowExpiry s
  | .gatheringWindowExpiry => Sys2Proof.Machine.execGatheringWindowExpiry s
  | .attemptEnd ending => Sys2Proof.Machine.execAttemptEnd ending s
  | .attemptStopped ending => Sys2Proof.Machine.execAttemptStopped ending s
  | .kindNamesNoKind kind page tag => Sys2Proof.Machine.execKindNamesNoKind kind page tag s

end Sys2Proof.Machine
end

