-- ==== Sys2Proof/Safety.lean ====
section
/-! DEFINITION. What a safe FC412 is: the laws the reference states of it, and the conditions under which a command is
taken as what it names. -/

namespace Sys2Proof.Machine

/-! ## The laws -/

/-- The Page Store: each page's cells are canonical (log entry 1) and every cell holds 00h or a printable code (R132). -/
def State.CellLaw (s : State) : Prop :=
  ∀ p : PageNum, (s.page p).cells.wf ∧ ∀ c ∈ (s.page p).cells, printable c.2 = true

/-- The Report Unit (R144, R145): at most 8 reports; reports wait outside the queue only while it holds 8; the bytes taken
are fewer than the head report's total length. -/
structure State.ReportLaw (s : State) : Prop where
  bound : s.reports.queue.length ≤ 8
  waiting : s.reports.queue.length < 8 →
    s.interp.stalled = none ∧ s.reports.notice = none ∧ ∀ p : PageNum, (s.page p).attention = .empty
  taken : match s.reports.queue with
    | [] => s.reports.taken = 0
    | r :: _ => s.reports.taken < (s.reportBytes r).length

/-- A report is an entry report of the page. -/
def Report.isEntryOf (p : PageNum) : Report → Bool
  | .entry e => e.page == p
  | .attention _ _ _ | .completion _ _ _ | .status _ | .eraseDone _ | .start => false

/-- Page Control (R4, R8, R12, R20, R24, R46, R145): the page states, the ready queue and the active page; the mark, the
state and the reply timer of a page that a transaction in flight names; one entry report for each SENDING page. -/
structure State.PageLaw (s : State) : Prop where
  active : ∀ p : PageNum, s.active = some p ↔ (s.page p).state = .active
  readyOnce : s.ready.Nodup
  ready : ∀ p : PageNum, p ∈ s.ready ↔ (s.page p).state = .ready
  promoted : s.ready ≠ [] → s.active ≠ none
  noPage : s.active ≠ none → s.noPage = none
  marked : ∀ p : PageNum, (s.page p).inFlight = true ↔ ∃ t, s.inFlightTxn = some t ∧ t.page = some p
  loading : ∀ p : PageNum,
    (s.page p).state = .loading ↔ ∃ t, s.inFlightTxn = some t ∧ t.kind = some .load ∧ t.page = some p
  replied : ∀ t p, s.inFlightTxn = some t → t.kind = some .reopen ∨ t.kind = some .close → t.page = some p →
    (s.page p).state = .awaiting
  entries : ∀ p : PageNum,
    s.reports.queue.countP (Report.isEntryOf p) = if (s.page p).state = .sending then 1 else 0
  stalled : ∀ p r, s.interp.stalled = some r → Report.isEntryOf p r = false
  timer : ∀ p : PageNum, (s.page p).timer = .absent ↔ (s.page p).state ≠ .awaiting
  sent : ∀ p : PageNum, (s.page p).state = .sending ∨ (s.page p).state = .awaiting →
    (s.page p).overdue = false ∧ (s.page p).unsent = false
  marks : ∀ p : PageNum, ¬((s.page p).overdue = true ∧ (s.page p).unsent = true)

/-- The field is an ALPHA entry field. -/
def Field.isAlpha (f : Field) : Bool := f.entry.any (·.cls = .alpha)

/-- The cursor lies in the form area (R43); the field list is in positional order, its fields inside the page and apart
(R32), their lengths 1–240 and their numbers 0–95 and distinct (R26); the links are as R33 has them. -/
structure Page.FieldLaw (g : Page) : Prop where
  cursor : g.cursor < 1920
  extent : ∀ f ∈ g.fields, 1 ≤ f.length ∧ f.length ≤ 240 ∧ f.start + f.length ≤ 1920
  order : g.fields.Pairwise fun f h => f.start + f.length ≤ h.start
  numbers : (g.fields.map (·.number)).Nodup
  named : ∀ f ∈ g.fields, f.number ≤ 95
  links : ∀ f ∈ g.fields, ∀ n, f.continuation = some n →
    f.isAlpha = true ∧ ∃ h ∈ g.fields, h.number = n ∧ h.isAlpha = true ∧ f.start + f.length ≤ h.start
  linkOnce : ∀ f ∈ g.fields, ∀ h ∈ g.fields, ∀ n, f.continuation = some n → h.continuation = some n → f = h

/-- The field records in use (R25). -/
def State.recordsInUse (s : State) : Nat := (allPages.map fun p => (s.page p).fields.length).sum

/-- Every page's field list, and the pool (R25). -/
structure State.FieldLaw (s : State) : Prop where
  page : ∀ p : PageNum, (s.page p).FieldLaw
  pool : s.recordsInUse ≤ 256

/-- The chain records of a page (R116): members are ENTRY fields that take scans; no field belongs to two chains; each
index is below the member count and each remaining count lies between 1 and the count. The current chain exists. -/
structure Page.ChainLaw (g : Page) : Prop where
  record : ∀ (c : ChainId) (k : Chain), g.chains[c.val] = some k →
    k.members.Nodup ∧ k.members.length ≤ 16 ∧ k.index < k.members.length ∧ 1 ≤ k.remaining ∧ k.remaining ≤ k.count ∧
      k.count ≤ 255
  member : ∀ (c : ChainId) (k : Chain), g.chains[c.val] = some k → ∀ n ∈ k.members,
    ∃ f ∈ g.fields, f.number = n ∧ f.entry.any (·.source ≠ .key) = true
  once : ∀ (c d : ChainId) (k l : Chain), g.chains[c.val] = some k → g.chains[d.val] = some l →
    ∀ n ∈ k.members, n ∈ l.members → c = d
  current : ∀ c : ChainId, g.current = some c → g.chains[c.val].isSome = true

/-- Every page's chains. -/
def State.ChainLaw (s : State) : Prop := ∀ p : PageNum, (s.page p).ChainLaw

/-- The Key Input Unit and the Scan Unit: the type-ahead queue holds at most 16 key events, never RESET or ATTN, and only
during inhibit (R88, R92, R93, R98), and so does the scan buffer (R100); a confirm-pending record exists only while its page
is ACTIVE, its target is a field of that page, and the window runs exactly while it exists (R100, log entry 19); a frame in progress counts 1 to 255 bytes to come (R88), and the frame being received exists exactly
while it counts (log entry 13); the settings lie in their ranges (R115, R120). -/
structure State.InputLaw (s : State) : Prop where
  bound : s.keys.queue.length ≤ 16
  held : s.keys.queue ≠ [] → s.inhibited = true
  codes : ∀ b ∈ s.keys.queue, keyOfByte b ≠ .reset ∧ keyOfByte b ≠ .attn
  setting : s.keys.typeAhead = false → s.keys.queue = []
  buffer : s.scan.buffer ≠ none → s.inhibited = true
  confirm : ∀ r, s.scan.confirm = some r → s.active = some r.page ∧ ∃ f ∈ (s.page r.page).fields, f.number = r.field
  window : s.scan.window.isSome = s.scan.confirm.isSome
  counting : ∀ n, s.keys.frame = .counting n → 1 ≤ n ∧ n ≤ 255
  frame : s.scan.receiving.isSome = true ↔ ∃ n, s.keys.frame = .counting n
  settings : 1 ≤ s.interp.confirmWindow ∧ s.interp.confirmWindow ≤ 50 ∧ s.interp.replyLimit ≤ 255

/-- The slot is QUEUED, ERASING or HELD. -/
def SlotState.inEraseWork : SlotState → Bool
  | .queued _ | .erasing | .held => true
  | .blank | .recording | .filled | .failed => false

/-- The Template Store (R159, R160, R161, R167): the slot in work is the one slot ERASING, or HELD while PAUSED; every slot
in erase work is in the batch; a slot is RECORDING exactly while a STORE naming it is in flight. -/
structure State.EraseLaw (s : State) : Prop where
  batch : s.store.unit.batch.Nodup ∧ s.store.unit.batch.length ≤ 8
  inBatch : ∀ n : SlotNum, (s.slot n).state.inEraseWork = true → n ∈ s.store.unit.batch
  erasing : ∀ n : SlotNum, (s.slot n).state = .erasing ↔
    s.store.unit.work = some n ∧ (s.store.unit.state = .erasing ∨ s.store.unit.state = .pausing)
  held : ∀ n : SlotNum, (s.slot n).state = .held ↔ s.store.unit.work = some n ∧ s.store.unit.state = .paused
  idle : s.store.unit.state = .idle →
    s.store.unit.batch = [] ∧ s.store.unit.result = [] ∧ s.store.unit.work = none
  gathering : s.store.unit.state = .gathering →
    s.store.unit.work = none ∧ s.store.unit.result = [] ∧ s.lowestQueued ≠ none
  window : s.store.unit.window.isSome = true ↔ s.store.unit.state = .gathering
  working : s.store.unit.state = .erasing ∨ s.store.unit.state = .pausing → s.store.unit.work ≠ none
  paused : s.store.unit.state = .paused → s.store.unit.work ≠ none ∨ s.lowestQueued ≠ none
  attempts : s.store.unit.attempts ≤ 4 ∧ (s.store.unit.work ≠ none → s.store.unit.attempts ≤ 3)
  result : (s.store.unit.result.map (·.1)).Nodup ∧
    ∀ n ∈ s.store.unit.result.map (·.1), n ∈ s.store.unit.batch ∧ (s.slot n).state.inEraseWork = false
  used : ∀ n : SlotNum, (s.slot n).used ≤ 3072 ∧ (s.slot n).used = ((s.slot n).content.map (·.length)).sum
  recording : ∀ n : SlotNum, (s.slot n).state = .recording ↔
    ∃ t, s.inFlightTxn = some t ∧ t.kind = some .store ∧ slotOfByte (t.operands.getD 0 0x00#8) = some n

/-! ## When a command is taken as what it names -/

/-- START has been taken and nothing since; the stream port is not held off (R121, R122, R130). -/
def State.headerDue (s : State) : Prop :=
  s.interp.state = .header ∧ s.interp.txn = some .opened ∧ s.interp.stalled = none

/-- A transaction of kind k with record t is in flight and a byte in the order-code position is due (R124). -/
def State.orderDue (s : State) (t : Transaction) (k : Kind) : Prop :=
  s.interp.state = .orders ∧ s.interp.txn = some t ∧ t.kind = some k ∧ t.order = [] ∧ s.interp.stalled = none

/-- Page p is ACTIVE, outside error hold and inhibit, and no scan frame is in progress: a key acts on it at once (R89, R90,
R94). -/
def State.editing (s : State) (p : PageNum) : Prop :=
  s.active = some p ∧ (s.page p).hold = none ∧ s.inhibited = false ∧ s.keys.frame = .absent

/-- A record as an accepted header leaves it (R121, R122). -/
def Transaction.ofHeader (header : List Byte) : Transaction :=
  { header := header, order := [], index := 0, writePos := 0, status := .ok, firstSkipped := none }

/-- R130, R152: the report has joined the tail of the queue, or is held as the stalled report when the queue holds 8. -/
def State.answered (s t : State) (r : Report) : Prop :=
  if s.reports.queue.length < 8 then
    t.reports = { s.reports with queue := s.reports.queue ++ [r] } ∧ t.interp.stalled = s.interp.stalled
  else t.reports = s.reports ∧ t.interp.stalled = some r

/-- R123: t is s after a header is refused: a completion report, the interpreter in SKIPPING, nothing else changed. -/
def State.refusedTo (s t : State) (tag : Byte) (status : Status) (detail : Nat) : Prop :=
  t = { s with
    reports := t.reports
    interp := { s.interp with state := .skipping, txn := none, stalled := t.interp.stalled } } ∧
  s.answered t (.completion tag status detail)

/-- R126, R127: t is base after a transaction has closed with an answer: the report, and the interpreter in the next state
with record r; nothing else changed. -/
def State.closedTo (base t : State) (next : InterpState) (r : Option Transaction) (report : Report) : Prop :=
  t = { base with
    reports := t.reports
    interp := { base.interp with state := next, txn := r, stalled := t.interp.stalled } } ∧
  base.answered t report

/-- R124: the order index of the order now taken. -/
def Transaction.next (t : Transaction) : Nat := min (t.index + 1) 255

/-- The record after an order has been carried out. -/
def Transaction.carried (t : Transaction) : Transaction := { t with index := t.next }

/-- The record after an order has been skipped (R125). -/
def Transaction.skipped (t : Transaction) : Transaction :=
  { t with index := t.next, status := .someSkipped, firstSkipped := some (t.firstSkipped.getD t.next) }

/-- The state with the transaction record replaced. -/
def State.withTxn (s : State) (t : Transaction) : State := { s with interp := { s.interp with txn := some t } }

/-- The key code of a key command (11.4). -/
def keyCode : Instr → Option Byte
  | .left => some 0x80#8
  | .right => some 0x81#8
  | .up => some 0x82#8
  | .down => some 0x83#8
  | .tab => some 0x84#8
  | .backtab => some 0x85#8
  | .home => some 0x86#8
  | .newline => some 0x87#8
  | .insert => some 0x88#8
  | .delete => some 0x89#8
  | .backspace => some 0x8A#8
  | .eraseEof => some 0x8B#8
  | .clearField => some 0x8C#8
  | .reset => some 0x8D#8
  | .enter => some 0x8E#8
  | .attn => some 0x8F#8
  | .park => some 0x90#8
  | .functionKey k => some (byteOf (0x91 + k.val))
  | .characterKey code => some code
  | .unknownKey code => some code
  | .resetLine | .streamReset | .start | .strayByte _ | .skippedByte _ | .load _ _ | .amend _ _ | .post _ _
  | .reopen _ _ _ | .close _ _ _ | .restart _ _ | .setup _ _ _ _ _ | .query _ _ | .store _ _ _ _ | .erase _ _ _ _
  | .pause _ _ | .resume _ _ | .setpos _ _ | .text _ _ | .repeatChar _ _ | .clear _ | .define _ | .drop _
  | .cursor _ _ | .message _ _ | .mark _ _ | .unmodify _ | .chain _ _ _ _ _ _ | .unchain _ | .select _ | .recall _
  | .badOrderCode _ | .aborted | .endTransaction | .reportByteTaken | .scanFrame _ _ | .scanAnswerByteTaken
  | .rowRequest _ | .cursorRequest | .replyTimerExpiry _ | .confirmWindowExpiry | .gatheringWindowExpiry
  | .attemptEnd _ | .attemptStopped _ | .kindNamesNoKind _ _ _ => none

/-- The codes a text order writes from the write position on (R132, R133): absent for any other command, and for a text
order whose count the rules refuse. -/
def codesWritten : Instr → Option (List Byte)
  | .text n bytes => if n ≠ 0x00#8 ∧ bytes.length = n.toNat then some (bytes.map substituted) else none
  | .repeatChar character count =>
    if 1 ≤ count.toNat ∧ count.toNat ≤ 1920 then some (List.replicate count.toNat (substituted character)) else none
  | .clear count =>
    if 1 ≤ count.toNat ∧ count.toNat ≤ 1920 then some (List.replicate count.toNat 0x00#8) else none
  | .resetLine | .streamReset | .start | .strayByte _ | .skippedByte _ | .load _ _ | .amend _ _ | .post _ _
  | .reopen _ _ _ | .close _ _ _ | .restart _ _ | .setup _ _ _ _ _ | .query _ _ | .store _ _ _ _ | .erase _ _ _ _
  | .pause _ _ | .resume _ _ | .setpos _ _ | .define _ | .drop _ | .cursor _ _ | .message _ _ | .mark _ _
  | .unmodify _ | .chain _ _ _ _ _ _ | .unchain _ | .select _ | .recall _ | .badOrderCode _ | .aborted
  | .endTransaction | .reportByteTaken | .left | .right | .up | .down | .tab | .backtab | .home | .newline | .insert
  | .characterKey _ | .delete | .backspace | .eraseEof | .clearField | .reset | .attn | .park | .enter
  | .functionKey _ | .unknownKey _ | .scanFrame _ _ | .scanAnswerByteTaken | .rowRequest _ | .cursorRequest
  | .replyTimerExpiry _ | .confirmWindowExpiry | .gatheringWindowExpiry | .attemptEnd _ | .attemptStopped _
  | .kindNamesNoKind _ _ _ => none

/-- The bytes of an order that a template can hold (R162), counts that R124 refuses left out; absent for any other
command. -/
def orderBytes : Instr → Option (List Byte)
  | .setpos row column => some [0x11#8, row, column]
  | .text n bytes => if n ≠ 0x00#8 ∧ bytes.length = n.toNat then some (0x12#8 :: n :: bytes) else none
  | .repeatChar character count =>
    some [0x13#8, character, count.extractLsb' 8 8, count.extractLsb' 0 8]
  | .clear count => some [0x14#8, count.extractLsb' 8 8, count.extractLsb' 0 8]
  | .define d => some (0x15#8 :: defineBytes d)
  | .cursor row column => some [0x17#8, row, column]
  | .message n bytes => if n.toNat ≤ 56 ∧ bytes.length = n.toNat then some (0x18#8 :: n :: bytes) else none
  | .chain id action count follow m members =>
    if 1 ≤ m.toNat ∧ m.toNat ≤ 16 ∧ members.length = m.toNat then
      some (0x1B#8 :: id :: action :: count :: follow :: m :: members)
    else none
  | .select id => some [0x1E#8, id]
  | .resetLine | .streamReset | .start | .strayByte _ | .skippedByte _ | .load _ _ | .amend _ _ | .post _ _
  | .reopen _ _ _ | .close _ _ _ | .restart _ _ | .setup _ _ _ _ _ | .query _ _ | .store _ _ _ _ | .erase _ _ _ _
  | .pause _ _ | .resume _ _ | .drop _ | .mark _ _ | .unmodify _ | .unchain _ | .recall _ | .badOrderCode _
  | .aborted | .endTransaction | .reportByteTaken | .left | .right | .up | .down | .tab | .backtab | .home | .newline
  | .insert | .characterKey _ | .delete | .backspace | .eraseEof | .clearField | .reset | .attn | .park | .enter
  | .functionKey _ | .unknownKey _ | .scanFrame _ _ | .scanAnswerByteTaken | .rowRequest _ | .cursorRequest
  | .replyTimerExpiry _ | .confirmWindowExpiry | .gatheringWindowExpiry | .attemptEnd _ | .attemptStopped _
  | .kindNamesNoKind _ _ _ => none

/-! ## Words the statements use -/

/-- d is the start of the first of the fields, by start position, that meet the condition. -/
def IsFirstStart (fs : List Field) (P : Field → Prop) (d : Nat) : Prop :=
  ∃ f ∈ fs, P f ∧ d = f.start ∧ ∀ h ∈ fs, P h → f.start ≤ h.start

/-- d is the start of the last of the fields, by start position, that meet the condition. -/
def IsLastStart (fs : List Field) (P : Field → Prop) (d : Nat) : Prop :=
  ∃ f ∈ fs, P f ∧ d = f.start ∧ ∀ h ∈ fs, P h → h.start ≤ f.start

/-- R53: what the fields, the chains and the current chain become when the cursor reaches a position: entering an ENTRY
field other than the cursor's own clears its touched mark and selects its chain; otherwise they stay. -/
def Page.entersTo (g : Page) (d : Nat) (fields : List Field) (chains : Vector (Option Chain) 4)
    (current : Option ChainId) : Prop :=
  match (g.entryAt d).filter fun f => !(g.entryAt g.cursor).any (·.number == f.number) with
  | none => fields = g.fields ∧ chains = g.chains ∧ current = g.current
  | some f =>
    fields = g.fields.map (fun h =>
      if h.number = f.number then { h with entry := h.entry.map fun e => { e with touched := false } } else h) ∧
    match g.memberOf f.number with
    | none => chains = g.chains ∧ current = g.current
    | some (c, k) =>
      chains = g.chains.set c.val (g.chains[c.val].map fun ch => { ch with index := k }) ∧ current = some c

/-- The field under the cursor, if it is an ENTRY field, is untouched: leaving it runs no check (R52). -/
def Page.cursorUntouched (g : Page) : Prop := ∀ f, g.entryAt g.cursor = some f → f.touched = false

/-- A move of the cursor to d runs no exit check (R51, R52): the ENTRY field under the cursor, if there is one, is untouched
or holds d too. -/
def Page.movesUnchecked (g : Page) (d : Nat) : Prop :=
  ∀ f, g.entryAt g.cursor = some f → f.touched = false ∨ f.start ≤ d ∧ d < f.start + f.length

/-- R47: the place to which an arrow key takes the cursor. -/
def Page.ArrowGoesTo (g : Page) (c : Instr) (d : Nat) : Prop :=
  c = .left ∧ d = (g.cursor + 1919) % 1920 ∨ c = .right ∧ d = (g.cursor + 1) % 1920 ∨
    c = .up ∧ d = (g.cursor + 1840) % 1920 ∨ c = .down ∧ d = (g.cursor + 80) % 1920

/-- R48 to R50: the place to which TAB, BACKTAB, HOME or NEWLINE takes the cursor among the ENTRY fields, on a page with some
and with none. -/
def Page.FieldKeyGoesTo (g : Page) (c : Instr) (d : Nat) : Prop :=
  let entries := g.fields.filter fun f => f.entry.isSome
  let row := (g.cursor / 80 + 1) * 80
  let within := ∃ f, g.entryAt g.cursor = some f ∧ f.start < g.cursor
  c = .tab ∧
      (IsFirstStart entries (fun f => g.cursor < f.start) d ∨
        (∀ f ∈ entries, f.start ≤ g.cursor) ∧ IsFirstStart entries (fun _ => True) d ∨ entries = [] ∧ d = 0) ∨
    c = .backtab ∧
      ((∃ f, g.entryAt g.cursor = some f ∧ f.start < g.cursor ∧ d = f.start) ∨
        ¬within ∧ IsLastStart entries (fun f => f.start < g.cursor) d ∨
        ¬within ∧ (∀ f ∈ entries, g.cursor ≤ f.start) ∧ IsLastStart entries (fun _ => True) d ∨
        entries = [] ∧ d = 0) ∨
    c = .home ∧ (IsFirstStart entries (fun _ => True) d ∨ entries = [] ∧ d = 0) ∨
    c = .newline ∧
      (IsFirstStart entries (fun f => row ≤ f.start) d ∨
        (∀ f ∈ entries, f.start < row) ∧ IsFirstStart entries (fun _ => True) d ∨
        entries = [] ∧ d = row % 1920)

/-- The page in error hold with a code (R65). -/
def Page.held (g : Page) (code : ErrorCode) : Page := { g with hold := some code, notice := some (.error code) }

/-- R35, R37, R114: the Scan Unit after fields of page p have been dropped: a confirm-pending record whose target is one of
them goes, and its window with it. -/
def State.scanWithout (s : State) (p : PageNum) (dropped : Nat → Bool) : ScanUnit :=
  match s.scan.confirm with
  | some r => if r.page = p ∧ dropped r.field = true then { s.scan with confirm := none, window := none } else s.scan
  | none => s.scan

/-- Nothing waits for a report queue entry (R144). -/
def State.nothingWaits (s : State) : Prop :=
  s.interp.stalled = none ∧ s.reports.notice = none ∧ ∀ p : PageNum, (s.page p).attention = .empty

/-- The state after an answer to a scan frame joins the answer bytes (R184). -/
def State.scanAnswered (s : State) (a : ScanAnswer) : State :=
  { s with scan := { s.scan with answers := s.scan.answers ++ a.bytes } }

/-- No frame is in progress and none is being received (R88, R100). -/
def State.frameFree (s : State) : Prop := s.keys.frame = .absent ∧ s.scan.receiving = none

/-- Commands whose bytes go down the stream port. -/
def onStreamPort : Instr → Bool
  | .start | .strayByte _ | .skippedByte _ | .load _ _ | .amend _ _ | .post _ _ | .reopen _ _ _ | .close _ _ _
  | .restart _ _ | .setup _ _ _ _ _ | .query _ _ | .store _ _ _ _ | .erase _ _ _ _ | .pause _ _ | .resume _ _
  | .kindNamesNoKind _ _ _ | .setpos _ _ | .text _ _ | .repeatChar _ _ | .clear _ | .define _ | .drop _ | .cursor _ _
  | .message _ _ | .mark _ _ | .unmodify _ | .chain _ _ _ _ _ _ | .unchain _ | .select _ | .recall _ | .badOrderCode _
  | .aborted | .endTransaction => true
  | .resetLine | .streamReset | .reportByteTaken | .left | .right | .up | .down | .tab | .backtab | .home | .newline
  | .insert | .characterKey _ | .delete | .backspace | .eraseEof | .clearField | .reset | .attn | .park | .enter
  | .functionKey _ | .unknownKey _ | .scanFrame _ _ | .scanAnswerByteTaken | .rowRequest _ | .cursorRequest
  | .replyTimerExpiry _ | .confirmWindowExpiry | .gatheringWindowExpiry | .attemptEnd _ | .attemptStopped _ => false

/-! ## Aborts and resets -/

/-- R127: what an abort of transaction t of kind k leaves of its page or its slot. -/
def State.afterAbort (s : State) (t : Transaction) (k : Kind) : State :=
  match t.page with
  | some p =>
    s.setPage p (if k = .load then { Page.blank with serial := (s.page p).serial } else { s.page p with inFlight := false })
  | none =>
    if k = .store then
      match slotOfByte (t.operands.getD 0 0x00#8) with
      | some n => s.updSlot n fun x => { x with state := .failed }
      | none => s
    else s

/-- R31, checks 1 and 2: the operands that no page and no position admits. -/
def DefineFailsAlone (d : DefineOperands) : Prop :=
  95 < d.number.toNat ∨ d.length.toNat = 0 ∨ 240 < d.length.toNat ∨ 1 < d.kind.toNat ∨
    d.presentation.toNat % 4 = 3 ∨
    d.kind = 0x01#8 ∧
      (3 < d.cls.toNat ∨ 2 < d.source.toNat ∨ 2 < d.check.toNat ∨ 2 < d.exitOption.toNat ∨
        d.cls = 0x00#8 ∧ d.check ≠ 0x00#8 ∨ d.cls = 0x01#8 ∧ d.check = 0x01#8 ∨
        d.cls ≠ 0x00#8 ∧ d.continuation ≠ 0xFF#8 ∨
        d.cls = 0x03#8 ∧ (d.check ≠ 0x00#8 ∨ d.length.toNat < 2 ∨ 20 < d.length.toNat ∨ 4 < d.scale.toNat ∨
          d.length.toNat ≤ d.scale.toNat ∨ 999999999 < d.bound.toNat))

/-- R31, checks 3 to 6, R33: the definition runs past the page, names a number in use, covers a field's cell, or names a
continuation that is no ALPHA field behind it or is another field's target. -/
def DefineFailsInPage (d : DefineOperands) (g : Page) (writePos : Nat) : Prop :=
  1920 < writePos + d.length.toNat ∨ (∃ f ∈ g.fields, f.number = d.number.toNat) ∨
    (∃ f ∈ g.fields, f.start < writePos + d.length.toNat ∧ writePos < f.start + f.length) ∨
    d.kind = 0x01#8 ∧ d.cls = 0x00#8 ∧ d.continuation ≠ 0xFF#8 ∧
      ((∀ f ∈ g.fields, f.number = d.continuation.toNat → f.isAlpha = false ∨ f.start < writePos + d.length.toNat) ∨
        ∃ f ∈ g.fields, f.continuation = some d.continuation.toNat)

/-- R95: an inhibit that ends now has no held input to release. -/
def State.nothingHeld (s : State) : Prop := s.inhibited = true → s.keys.queue = [] ∧ s.scan.buffer = none

/-- The attention reports that a page's pending causes stand for, in the order KEY, CHAIN0 to CHAIN3, EXIT (R156). -/
def Page.waiting (g : Page) (p : PageNum) : List Report :=
  let causes := (if g.attention.key then [Cause.key] else []) ++
    (([0, 1, 2, 3] : List ChainId).filter fun c => g.attention.chains[c.val]).map Cause.chain ++
    (g.attention.exit.map Cause.exit).toList
  causes.map fun cause => .attention p cause g.serial

/-- The reports that wait beside the stalled one, in the order in which they take freed entries (R156). -/
def State.waiting (s : State) : List Report :=
  (s.reports.notice.map Report.eraseDone).toList ++
    ([0, 1, 2, 3, 4, 5] : List PageNum).flatMap fun p => (s.page p).waiting p

/-- R154: a new erase result merged into a pending notice: a listed slot takes its new outcome in its place, the other
pairs follow in their own order. -/
def mergedPairs (notice result : List (SlotNum × EraseOutcome)) : List (SlotNum × EraseOutcome) :=
  (notice.map fun q => (result.find? fun r => r.1 == q.1).getD q) ++
    result.filter fun r => notice.all fun q => q.1 != r.1

/-! ## Attentions and sends on behalf of another event -/

/-- R150, R151: an attention of page p: a report at the tail of the queue; with 8 reports queued, the page's pending set
becomes the one given. -/
def State.attended (s : State) (p : PageNum) (cause : Cause) (set : AttentionSet) : State :=
  if s.reports.queue.length < 8 then
    { s with reports := { s.reports with queue := s.reports.queue ++ [.attention p cause (s.page p).serial] } }
  else s.setPage p { s.page p with attention := set }

/-- An entry report with another send key id. -/
def Report.withSendKey (id : Nat) : Report → Report
  | .entry e => .entry { e with sendKey := id }
  | .attention p cause serial => .attention p cause serial
  | .completion tag code detail => .completion tag code detail
  | .status body => .status body
  | .eraseDone pairs => .eraseDone pairs
  | .start => .start

/-- V, which a send from s gave, with send key id `id` in the entry report that joined the queue, if one did. -/
def State.sentWith (s v : State) (id : Nat) : State :=
  { v with reports := { v.reports with
    queue := v.reports.queue.take s.reports.queue.length ++
      (v.reports.queue.drop s.reports.queue.length).map (Report.withSendKey id) } }

/-! ## Exits -/

/-- R52 to R54, R65: t is what a move of the cursor of page p from field f, touched, to d outside it makes of s. A passing
exit check writes an AMOUNT field's cells, clears the field's touched and check-error marks and lets the move be made; then
the exit option is carried out: none, an attention, or a send with id 14. A failing one leaves the cursor, and the page
enters error hold. -/
def State.ExitTo (s : State) (p : PageNum) (f : Field) (e : EntryItems) (d : Nat) (t : State) : Prop :=
  let g := s.page p
  let codes := (List.range f.length).map fun i => g.cells.read (f.start + i)
  let marked (change : EntryItems → EntryItems) : Page := { g with
    fields := g.fields.map fun h => if h.number = f.number then { h with entry := h.entry.map change } else h }
  (∀ code : ErrorCode, exitCheck e f.length codes = .fail code →
    t = { s.setPage p ((marked fun x => { x with checkError := some code }).held code) with
      keys := { s.keys with queue := [] } }) ∧
  ∀ out : List Byte, exitCheck e f.length codes = .pass out →
    ∃ cells : Cells, cells.wf ∧
      (∀ a, cells.read a = if e.cls = .amount ∧ f.start ≤ a ∧ a < f.start + f.length then out.getD (a - f.start) 0x00#8
        else g.cells.read a) ∧
      let left := { marked fun x => { x with touched := false, checkError := none } with cells := cells }
      ∃ fields chains current, left.entersTo d fields chains current ∧
        let moved := s.setPage p { left with cursor := d, fields := fields, chains := chains, current := current }
        (e.exitOption = .nothing → t = moved) ∧
        (e.exitOption = .attn → t = moved.attended p (.exit f.number) { g.attention with exit := some f.number }) ∧
        (e.exitOption = .send → ∃ v, exec .enter moved = .next v ∧ t = moved.sentWith v 14)

/-! ## Continuation groups -/

/-- R34: a continuation group of a page, head first: ENTRY fields, each linked to the next, no link into the head and none
out of the last. -/
structure Page.IsGroup (g : Page) (fs : List Field) : Prop where
  fields : ∀ f ∈ fs, f ∈ g.fields ∧ f.entry.isSome = true
  linked : ∀ i f h, fs[i]? = some f → fs[i + 1]? = some h → f.continuation = some h.number
  head : ∀ f, fs.head? = some f → ∀ h ∈ g.fields, h.continuation ≠ some f.number
  last : ∀ f, fs.getLast? = some f → f.continuation = none

/-- R59: the fields of a page after a key has acted in field n of group fs and left these cells: n is modified, touched and
without host mark; another field of the group is modified when a code of its cells changed. -/
def Page.editedGroup (g : Page) (fs : List Field) (n : Nat) (cells : Cells) : List Field :=
  g.fields.map fun f =>
    if f.number = n then
      { f with modified := true, entry := f.entry.map fun e => { e with touched := true, hostMark := none } }
    else if fs.any (fun h => h.number == f.number) &&
        (List.range f.length).any (fun i => cells.read (f.start + i) != g.cells.read (f.start + i)) then
      { f with modified := true }
    else f

/-- R29, R56: the class admits character b, which is written as c. -/
def EntryItems.Admits (e : EntryItems) (b c : Byte) : Prop :=
  e.cls = .alpha ∧ 0x20 ≤ b.toNat ∧ b.toNat ≤ 0x7E ∧ c = b ∨
  e.cls = .code ∧ 0x61 ≤ b.toNat ∧ b.toNat ≤ 0x7A ∧ c = b - 0x20#8 ∨
  e.cls = .code ∧ (0x30 ≤ b.toNat ∧ b.toNat ≤ 0x39 ∨ 0x41 ≤ b.toNat ∧ b.toNat ≤ 0x5A ∨ b = 0x2D#8) ∧ c = b ∨
  (e.cls = .digits ∨ e.cls = .amount) ∧ 0x30 ≤ b.toNat ∧ b.toNat ≤ 0x39 ∧ c = b ∨
  e.cls = .amount ∧ (b = 0x2E#8 ∨ b = 0x2D#8 ∧ e.signed = true) ∧ c = b

/-! ## Reads -/

/-- R105, steps 3 and 4: the field to which a read goes that confirms none: the member at the current chain's index, or
without a current chain the field at the cursor. -/
def Page.ReadGoesTo (g : Page) (f : Field) : Prop :=
  g.current = none ∧ g.entryAt g.cursor = some f ∨
    ∃ (d : ChainId) (ch : Chain), g.current = some d ∧ g.chains[d.val] = some ch ∧ ch.members[ch.index]? = some f.number

/-- R106, R107: the characters fit field f, are folded so by its class, and with nulls behind them pass its candidate check,
which hands back `out`. -/
def Field.Fits (f : Field) (e : EntryItems) (characters folded out : List Byte) : Prop :=
  characters.length ≤ f.length ∧ characters.Forall₂ e.Admits folded ∧
    exitCheck e f.length (folded ++ List.replicate (f.length - folded.length) 0x00#8) = .pass out

/-- R108 to R111, R119: t is what a deposit of `out` into field f of page p makes of s. The field's cells are `out`, it is
modified, its marks are cleared and the read is answered ACK. A chain's member steps its chain: the index goes to the place
behind the member's, with wrap, the remaining count falls by one and is reloaded at zero, when the chain's action is taken:
none, an attention, or a send with id 13. With the follow flag, and the page still ACTIVE and outside error hold, the cursor
then goes to the start of the next ENTRY field after f: a cursor move, and an exit when it leaves a touched field. -/
def State.DepositTo (s : State) (p : PageNum) (f : Field) (out : List Byte) (t : State) : Prop :=
  let g := s.page p
  ∃ cells : Cells, cells.wf ∧
    (∀ a, cells.read a =
      if f.start ≤ a ∧ a < f.start + f.length then out.getD (a - f.start) 0x00#8 else g.cells.read a) ∧
    let deposited (chains : Vector (Option Chain) 4) : State := (s.setPage p
      { g with
        cells := cells
        chains := chains
        fields := g.fields.map fun h => if h.number = f.number then
          { h with
            modified := true
            entry := h.entry.map fun x => { x with touched := false, checkError := none, hostMark := none } }
          else h
        notice := none }).scanAnswered .ack
    ((∀ (d : ChainId) (ch : Chain), g.chains[d.val] = some ch → f.number ∉ ch.members) → t = deposited g.chains) ∧
    ∀ (d : ChainId) (ch : Chain) (k : Nat), g.chains[d.val] = some ch → ch.members[k]? = some f.number →
      let stepped := deposited (g.chains.set d.val (some { ch with
        index := (k + 1) % ch.members.length
        remaining := if ch.remaining = 1 then ch.count else ch.remaining - 1 }))
      ∃ w : State,
        (if ch.remaining = 1 then
          match ch.action with
          | .nothing => w = stepped
          | .attn => w = stepped.attended p (.chain d) { g.attention with chains := g.attention.chains.set d.val true }
          | .send => ∃ v, exec .enter stepped = .next v ∧ w = stepped.sentWith v 13
        else w = stepped) ∧
        let here := w.page p
        (ch.follow = false ∨ w.active ≠ some p ∨ here.hold ≠ none → t = w) ∧
        ∀ next : Nat, ch.follow = true → w.active = some p → here.hold = none →
          let entries := g.fields.filter fun h => h.entry.isSome
          IsFirstStart entries (fun h => f.start < h.start) next ∨
            (∀ h ∈ entries, h.start ≤ f.start) ∧ IsFirstStart entries (fun _ => True) next →
          (here.movesUnchecked next → ∃ fields chains current, here.entersTo next fields chains current ∧
            t = w.setPage p { here with cursor := next, fields := fields, chains := chains, current := current }) ∧
          ∀ (h : Field) (x : EntryItems), here.entryAt here.cursor = some h → h.entry = some x → x.touched = true →
            next < h.start ∨ h.start + h.length ≤ next → w.ExitTo p h x next t

/-! ## Amounts -/

/-- The parts of an amount as R74 reads it: blanks, an optional '-', digits, an optional '.' with digits, blanks. -/
structure AmountParsed where
  lead : List Byte
  negative : Bool
  whole : List Byte
  point : Bool
  fraction : List Byte
  trail : List Byte
  deriving DecidableEq, Repr

/-- The digits as the codes 30h to 39h. -/
def AllDigits (digits : List Byte) : Prop := ∀ b ∈ digits, 0x30 ≤ b.toNat ∧ b.toNat ≤ 0x39

/-- R74: the codes read as these parts, a '-' standing only where the field is signed. -/
structure AmountParsed.Of (a : AmountParsed) (signed : Bool) (codes : List Byte) : Prop where
  codes : codes = a.lead ++ (if a.negative then [0x2D#8] else []) ++ a.whole ++
    (if a.point then 0x2E#8 :: a.fraction else []) ++ a.trail
  blanks : ∀ b ∈ a.lead ++ a.trail, b = 0x00#8 ∨ b = 0x20#8
  digits : AllDigits a.whole ∧ AllDigits a.fraction
  present : a.whole ++ a.fraction ≠ []
  pointed : a.point = false → a.fraction = []
  sign : a.negative = true → signed = true

/-- A number in decimal, without leading zeros (R76). -/
def decimalCodes (n : Nat) : List Byte := (Nat.toDigits 10 n).map fun c => byteOf c.toNat

/-- R75: the magnitude of the value, in units of 10^−scale. -/
def AmountParsed.magnitude (a : AmountParsed) (scale : Nat) : Nat :=
  (a.whole ++ a.fraction).foldl (fun n b => n * 10 + (b.toNat - 0x30)) 0 * 10 ^ (scale - a.fraction.length)

/-- R76: the text of a magnitude. -/
def magnitudeText (magnitude scale : Nat) : List Byte :=
  decimalCodes (magnitude / 10 ^ scale) ++
    if scale = 0 then [] else 0x2E#8 :: (decimalCodes (10 ^ scale + magnitude % 10 ^ scale)).drop 1

end Sys2Proof.Machine
end

