-- ==== Sys2Proof/WellFormed.lean ====
section
/-! DEFINITION. Which commands spell what their row names: operand counts that the byte layouts fix, and codes that the
row's own words fix. A meaning takes every command as the bytes it stands for, well formed or not. -/

namespace Sys2Proof

/-- The kind bytes of the twelve kinds (11.2, R122). -/
def kindBytes : List Byte :=
  [0x4C#8, 0x41#8, 0x50#8, 0x4F#8, 0x43#8, 0x52#8, 0x53#8, 0x51#8, 0x54#8, 0x45#8, 0x48#8, 0x55#8]

/-- A code of the key table or the scan marker (11.4): the codes that are not unknown keys. -/
def knownInputCode (b : Byte) : Bool :=
  (0x20 ≤ b.toNat && b.toNat ≤ 0x7E) || (0x80 ≤ b.toNat && b.toNat ≤ 0x9C) || b == 0x1D#8

/-- The row's operands have the lengths and codes that the byte layouts give it (11.2, 11.4, R89, R101, R122, R124). -/
def Instr.wellFormed : Instr → Bool
  | .strayByte b => b != 0x02#8
  | .store _ _ _ label => label.length == 8
  | .erase _ _ count slots =>
    slots.length == (if 1 ≤ count.toNat && count.toNat ≤ 8 then count.toNat else 0)
  | .text n bytes => bytes.length == n.toNat
  | .message n bytes => bytes.length == (if n.toNat ≤ 56 then n.toNat else 0)
  | .chain _ _ _ _ m members => members.length == (if m.toNat ≤ 16 then m.toNat else 0)
  | .badOrderCode b => b != 0x02#8 && b != 0x03#8
  | .characterKey code => 0x20 ≤ code.toNat && code.toNat ≤ 0x7E
  | .unknownKey code => !knownInputCode code
  | .scanFrame length characters => characters.length == length.toNat
  | .attemptEnd ending => ending != .stopped
  | .kindNamesNoKind kind _ _ => !kindBytes.contains kind
  | .resetLine | .streamReset | .start | .skippedByte _ | .load _ _ | .amend _ _ | .post _ _ | .reopen _ _ _
  | .close _ _ _ | .restart _ _ | .setup _ _ _ _ _ | .query _ _ | .pause _ _ | .resume _ _ | .setpos _ _
  | .repeatChar _ _ | .clear _ | .define _ | .drop _ | .cursor _ _ | .mark _ _ | .unmodify _ | .unchain _
  | .select _ | .recall _ | .aborted | .endTransaction | .reportByteTaken | .left | .right | .up | .down | .tab
  | .backtab | .home | .newline | .insert | .delete | .backspace | .eraseEof | .clearField | .reset | .attn
  | .park | .enter | .functionKey _ | .scanAnswerByteTaken | .rowRequest _ | .cursorRequest
  | .replyTimerExpiry _ | .confirmWindowExpiry | .gatheringWindowExpiry | .attemptStopped _ => true

end Sys2Proof
end

