-- ==== Sys2Proof/Certificates/Slice0/Obligations.lean ====
section
/-! DEFINITION. The statements for the provers. -/

open Sys2Proof Sys2Proof.Machine

/-! ## The queue of commands, and the laws -/

/-- A step takes the command at the front of the queue and runs exec on it with the queue's rest (log entry 3). -/
def Obligations.StepRunsFrontCommand : Prop :=
  ∀ (c : Instr) (rest : List Instr) (s : State), s.pending = c :: rest → step s = exec c { s with pending := rest }

/-- No command touches the queue of commands: exec changes everything but the queue (log entry 3). -/
def Obligations.CommandsLeaveTheQueue : Prop :=
  ∀ (c : Instr) (s t : State), exec c s = .next t → t.pending = s.pending

/-- Each law holds of the FC412 after the reset line. -/
def Obligations.LawsHoldAtReset : Prop :=
  State.reset.CellLaw ∧ State.reset.ReportLaw ∧ State.reset.PageLaw ∧ State.reset.FieldLaw ∧ State.reset.ChainLaw ∧
    State.reset.InputLaw ∧ State.reset.EraseLaw

/-- R132: "every page cell holds 00h or 20h–7Eh"; each page's cells stay canonical. -/
def Obligations.StepKeepsCellLaw : Prop :=
  ∀ s t : State, s.CellLaw → step s = .next t → t.CellLaw

/-- R144, R145: at most 8 reports are queued, and reports wait outside the queue only while it holds 8. -/
def Obligations.StepKeepsReportLaw : Prop :=
  ∀ s t : State, s.ReportLaw → step s = .next t → t.ReportLaw

/-- R4, R8, R12, R20, R24, R145: the laws of the page states, the ready queue and the entry reports. -/
def Obligations.StepKeepsPageLaw : Prop :=
  ∀ s t : State, s.PageLaw → step s = .next t → t.PageLaw

/-- R25, R32, R33, R43: the laws of the cursor, the field lists, the links and the pool. -/
def Obligations.StepKeepsFieldLaw : Prop :=
  ∀ s t : State, s.FieldLaw → step s = .next t → t.FieldLaw

/-- R116: the law of the chain records. -/
def Obligations.StepKeepsChainLaw : Prop :=
  ∀ s t : State, s.ChainLaw → step s = .next t → t.ChainLaw

/-- R88, R98, R100: the law of the type-ahead queue and of the Scan Unit, among it that a confirm-pending record exists only
while its page is ACTIVE and that its target is a field of that page. That the record names its page, and that no frame is
being received before its length byte, are the model's readings (log entries 19 and 13). -/
def Obligations.StepKeepsInputLaw : Prop :=
  ∀ s t : State, s.PageLaw → s.InputLaw → step s = .next t → t.InputLaw

/-- R160, R167: the law of the slots and of the erase unit. -/
def Obligations.StepKeepsEraseLaw : Prop :=
  ∀ s t : State, s.EraseLaw → step s = .next t → t.EraseLaw

/-! ## The reset line and the stream reset -/

/-- R3, R155, R174: what the reset line leaves, whatever stood before. -/
def Obligations.LineResetSettlesEverything : Prop :=
  ∀ s : State, ∃ t, exec .resetLine s = .next t ∧
    (∀ p : PageNum, t.page p = Page.blank) ∧ t.ready = [] ∧ t.active = none ∧ t.noPage = none ∧
    t.keys = { queue := [], typeAhead := true, frame := .absent } ∧
    t.scan = { buffer := none, confirm := none, window := none, receiving := none, answers := [] } ∧
    t.interp = { state := .between, txn := none, stalled := none, replyLimit := 30, confirmWindow := 15 } ∧
    t.reports = { queue := [.start], taken := 0, padding := 0, notice := none } ∧
    t.reportBytes .start = [0x42#8, 0x00#8, 0x00#8] ∧
    t.store.unit = { state := .idle, batch := [], window := none, work := none, attempts := 0, result := [] } ∧
    ∀ n : SlotNum,
      (t.slot n).content = (s.slot n).content ∧ (t.slot n).used = (s.slot n).used ∧
      (t.slot n).label = (s.slot n).label ∧
      (t.slot n).state =
        match (s.slot n).state with
        | .blank => .blank
        | .filled => .filled
        | .failed | .recording | .erasing | .held => .failed
        | .queued .blank => .blank
        | .queued .filled => .filled
        | .queued .failed => .failed

/-- R157, R18, R143, R156, R6. With no transaction in flight: a stalled report is discarded, the queue emptied, every SENDING
page comes back READY and unsent at the head of the ready queue in ascending page number, with no page ACTIVE the head is
promoted, and the first 8 of the waiting reports (R156) enter the queue. With a transaction in flight, no report waiting and
no page SENDING: the abort's effects, and no report is made. -/
def Obligations.StreamResetReturnsSendingPages : Prop :=
  ∀ s : State,
    let lost := ([0, 1, 2, 3, 4, 5] : List PageNum).filter fun p => (s.page p).state = .sending
    let back (p : PageNum) : Page :=
      if (s.page p).state = .sending then { s.page p with state := .ready, unsent := true } else s.page p
    (s.interp.state ≠ .orders →
      ∃ t, exec .streamReset s = .next t ∧
        t.reports = { queue := s.waiting.take 8, taken := 0, padding := 0, notice := none } ∧
        t.waiting = s.waiting.drop 8 ∧
        t.interp = { s.interp with state := .between, txn := none, stalled := none } ∧ t.store = s.store ∧
        (s.active ≠ none ∨ lost ++ s.ready = [] →
          t.ready = lost ++ s.ready ∧ t.active = s.active ∧ t.noPage = s.noPage ∧ t.keys = s.keys ∧ t.scan = s.scan ∧
          ∀ p : PageNum, t.page p = { back p with attention := (t.page p).attention }) ∧
        ∀ (q : PageNum) (rest : List PageNum), s.active = none → lost ++ s.ready = q :: rest →
          t.ready = rest ∧ t.active = some q ∧ t.noPage = none ∧ t.keys = { s.keys with queue := [] } ∧
          t.scan = { s.scan with
            buffer := none
            confirm := none
            window := none
            answers := s.scan.answers ++ if s.scan.buffer = none then [] else [0x15#8, 0x01#8] } ∧
          ∀ p : PageNum, t.page p =
            { back p with state := if p = q then .active else (back p).state, attention := (t.page p).attention }) ∧
    ∀ (t : Transaction) (k : Kind), s.interp.state = .orders → s.interp.txn = some t → t.kind = some k →
      s.nothingWaits → s.nothingHeld → lost = [] → (s.active ≠ none ∨ s.ready = []) →
      exec .streamReset s = .next { s.afterAbort t k with
        reports := { s.reports with queue := [], taken := 0, padding := 0 }
        interp := { s.interp with state := .between, txn := none } }

/-! ## Framing -/

/-- R121: between transactions 02h opens a record and any other byte is discarded. -/
def Obligations.BytesBetweenTransactions : Prop :=
  ∀ s : State, s.interp.state = .between → s.interp.stalled = none →
    exec .start s = .next { s with interp := { s.interp with
      state := .header
      txn := some { header := [], order := [], index := 0, writePos := 0, status := .ok, firstSkipped := none } } } ∧
    ∀ b : Byte, b ≠ 0x02#8 → exec (.strayByte b) s = .next s

/-- R128: in SKIPPING 03h ends the skip, 02h ends it and opens a record, every other byte is discarded. -/
def Obligations.BytesSkipped : Prop :=
  ∀ (s : State) (b : Byte), s.interp.state = .skipping → s.interp.stalled = none →
    exec (.skippedByte b) s = .next
      (if b = 0x03#8 then { s with interp := { s.interp with state := .between } }
      else if b = 0x02#8 then { s with interp := { s.interp with
        state := .header
        txn := some { header := [], order := [], index := 0, writePos := 0, status := .ok, firstSkipped := none } } }
      else s)

/-- R130: while a report is stalled the stream port takes no byte: no framing byte, header or order changes anything
(log entry 5). -/
def Obligations.StallHoldsTheStreamPort : Prop :=
  ∀ (s : State) (c : Instr), s.interp.stalled ≠ none → onStreamPort c = true → exec c s = .next s

/-! ## Headers -/

/-- R9: a LOAD header is accepted when the named page is FREE, and the page becomes LOADING; else it is refused STATE. -/
def Obligations.LoadHeaderNeedsFreePage : Prop :=
  ∀ (s : State) (p : PageNum) (tag : Byte), s.headerDue →
    ((s.page p).state = .free →
      exec (.load (byteOf p.val) tag) s = .next
        { s.setPage p { s.page p with state := .loading, inFlight := true } with
          interp := { s.interp with
            state := .orders
            txn := some (Transaction.ofHeader [0x4C#8, byteOf p.val, tag]) } }) ∧
    ((s.page p).state ≠ .free →
      ∃ t, exec (.load (byteOf p.val) tag) s = .next t ∧ s.refusedTo t tag .state 0)

/-- R10, R11: the page states in which an AMEND and a POST are accepted; acceptance sets the mark and moves no page. -/
def Obligations.AmendAndPostHeaders : Prop :=
  ∀ (s : State) (p : PageNum) (tag : Byte), s.headerDue →
    ((s.page p).state = .ready ∨ (s.page p).state = .active ∨ (s.page p).state = .awaiting →
      exec (.amend (byteOf p.val) tag) s = .next
        { s.setPage p { s.page p with inFlight := true } with
          interp := { s.interp with
            state := .orders
            txn := some (Transaction.ofHeader [0x41#8, byteOf p.val, tag]) } }) ∧
    ((s.page p).state = .free ∨ (s.page p).state = .loading ∨ (s.page p).state = .sending →
      ∃ t, exec (.amend (byteOf p.val) tag) s = .next t ∧ s.refusedTo t tag .state 0) ∧
    ((s.page p).state ≠ .free →
      exec (.post (byteOf p.val) tag) s = .next
        { s.setPage p { s.page p with inFlight := true } with
          interp := { s.interp with
            state := .orders
            txn := some (Transaction.ofHeader [0x50#8, byteOf p.val, tag]) } }) ∧
    ((s.page p).state = .free →
      ∃ t, exec (.post (byteOf p.val) tag) s = .next t ∧ s.refusedTo t tag .state 0)

/-- R12: the four rows that decide a REOPEN or CLOSE header. -/
def Obligations.ReplyHeaderMatchesSerial : Prop :=
  ∀ (s : State) (p : PageNum) (tag serial kind : Byte) (c : Instr), s.headerDue →
    (c = .reopen (byteOf p.val) tag serial ∧ kind = 0x4F#8 ∨ c = .close (byteOf p.val) tag serial ∧ kind = 0x43#8) →
    ((s.page p).state = .awaiting → serial = (s.page p).serial →
      exec c s = .next
        { s.setPage p { s.page p with inFlight := true } with
          interp := { s.interp with
            state := .orders
            txn := some (Transaction.ofHeader [kind, byteOf p.val, tag, serial]) } }) ∧
    ((s.page p).state = .awaiting → serial ≠ (s.page p).serial →
      ∃ t, exec c s = .next t ∧ s.refusedTo t tag .stale 0) ∧
    ((s.page p).state ≠ .awaiting → (s.page p).overdue = true →
      ∃ t, exec c s = .next t ∧ s.refusedTo t tag .late 0) ∧
    ((s.page p).state ≠ .awaiting → (s.page p).overdue = false →
      ∃ t, exec c s = .next t ∧ s.refusedTo t tag .state 0)

/-- R123, steps 1 and 2: a kind byte that names no kind is refused BADORDER, a page byte above 5 BADPAGE. -/
def Obligations.HeaderKindAndPageChecked : Prop :=
  ∀ (s : State) (kind page tag serial : Byte), s.headerDue →
    (kindBytes.contains kind = false →
      ∃ t, exec (.kindNamesNoKind kind page tag) s = .next t ∧ s.refusedTo t tag .badOrder 0) ∧
    (5 < page.toNat →
      ∀ c ∈ [Instr.load page tag, .amend page tag, .post page tag, .reopen page tag serial, .close page tag serial],
        ∃ t, exec c s = .next t ∧ s.refusedTo t tag .badPage 0)

/-- R122, R123: RESTART, SETUP and QUERY are accepted whatever their page byte, and their work waits for END. -/
def Obligations.PagelessHeadersWait : Prop :=
  ∀ (s : State) (page tag a b c : Byte), s.headerDue →
    (exec (.restart page tag) s = .next { s with interp := { s.interp with
      state := .orders, txn := some (Transaction.ofHeader [0x52#8, page, tag]) } }) ∧
    (exec (.setup page tag a b c) s = .next { s with interp := { s.interp with
      state := .orders, txn := some (Transaction.ofHeader [0x53#8, page, tag, a, b, c]) } }) ∧
    (exec (.query page tag) s = .next { s with interp := { s.interp with
      state := .orders, txn := some (Transaction.ofHeader [0x51#8, page, tag]) } })

/-- R161: the four refusals of a STORE, in their order, each with the slot byte as detail; and its acceptance. -/
def Obligations.StoreHeaderChecks : Prop :=
  ∀ (s : State) (page tag slot : Byte) (label : List Byte), s.headerDue → label.length = 8 →
    let busy := s.store.unit.state = .erasing ∨ s.store.unit.state = .pausing
    (busy → ∃ t, exec (.store page tag slot label) s = .next t ∧ s.refusedTo t tag .busy slot.toNat) ∧
    (¬busy → 23 < slot.toNat →
      ∃ t, exec (.store page tag slot label) s = .next t ∧ s.refusedTo t tag .badSlot slot.toNat) ∧
    ∀ n : SlotNum, slot = byteOf n.val → ¬busy →
      ((s.slot n).state = .recording ∨ (s.slot n).state.inEraseWork = true →
        ∃ t, exec (.store page tag slot label) s = .next t ∧ s.refusedTo t tag .slotBusy slot.toNat) ∧
      ((s.slot n).state = .filled ∨ (s.slot n).state = .failed →
        ∃ t, exec (.store page tag slot label) s = .next t ∧ s.refusedTo t tag .notBlank slot.toNat) ∧
      ((s.slot n).state = .blank →
        exec (.store page tag slot label) s = .next
          { s.updSlot n (fun _ => { state := .recording, content := [], used := 0, label := label }) with
            interp := { s.interp with
              state := .orders
              txn := some (Transaction.ofHeader (0x54#8 :: page :: tag :: slot :: label)) } })

/-- R123 step 4, R168: the refusals of an ERASE header, and what an ERASE taken in IDLE or GATHERING makes of its slots in
list order: a slot of the batch is passed over, a BLANK, FILLED or FAILED one joins the batch while it holds fewer than 8
and becomes QUEUED with its state as prior state, any other is skipped; the window holds 20 ms, and a run that begins has
an empty result. -/
def Obligations.EraseHeaderChecksAndBegins : Prop :=
  ∀ (s : State) (page tag count : Byte), s.headerDue →
    (count.toNat = 0 ∨ 8 < count.toNat →
      ∃ t, exec (.erase page tag count []) s = .next t ∧ s.refusedTo t tag .badOrder 0) ∧
    (∀ slots : List Byte, slots.length = count.toNat → 1 ≤ count.toNat → count.toNat ≤ 8 →
      (s.store.unit.state = .erasing ∨ s.store.unit.state = .pausing ∨ s.store.unit.state = .paused →
        ∃ t, exec (.erase page tag count slots) s = .next t ∧ s.refusedTo t tag .busy 0) ∧
      (s.store.unit.state = .idle ∨ s.store.unit.state = .gathering →
        ∀ (before after : List Byte) (b : Byte), slots = before ++ b :: after → (∀ x ∈ before, x.toNat ≤ 23) →
          23 < b.toNat →
          ∃ t, exec (.erase page tag count slots) s = .next t ∧ s.refusedTo t tag .badSlot b.toNat)) ∧
    ∀ ns : List SlotNum, s.store.unit.state = .idle ∨ s.store.unit.state = .gathering → ns.length = count.toNat →
      1 ≤ count.toNat → count.toNat ≤ 8 →
      let unit := s.store.unit
      let wanted := ns.filter fun n =>
        n ∉ unit.batch ∧ ((s.slot n).state = .blank ∨ (s.slot n).state = .filled ∨ (s.slot n).state = .failed)
      let joined := wanted.eraseDups.take (8 - unit.batch.length)
      let record := Transaction.ofHeader (0x45#8 :: page :: tag :: count :: ns.map fun n => byteOf n.val)
      ∃ t, exec (.erase page tag count (ns.map fun n => byteOf n.val)) s = .next t ∧
        t = { s with
          store := { slots := t.store.slots, unit := { unit with
            state := .gathering, batch := unit.batch ++ joined, window := some 20,
            result := if unit.state = .idle then [] else unit.result } }
          interp := { s.interp with
            state := .orders
            txn := some (match ns.find? fun n => n ∉ unit.batch ++ joined with
              | none => record
              | some n => { record with status := .someSkipped, firstSkipped := some n.val }) } } ∧
        ∀ n : SlotNum, t.slot n =
          if n ∈ joined then
            { s.slot n with state := match (s.slot n).state with
              | .blank => .queued .blank
              | .filled => .queued .filled
              | .failed => .queued .failed
              | other => other }
          else s.slot n

/-- R171, R173: what PAUSE and RESUME do in each state of the erase unit. -/
def Obligations.PauseAndResumeHeaders : Prop :=
  ∀ (s : State) (page tag : Byte), s.headerDue →
    let held (t : Transaction) : Interpreter := { s.interp with state := .orders, txn := some t }
    let pause := held (Transaction.ofHeader [0x48#8, page, tag])
    let resume := held (Transaction.ofHeader [0x55#8, page, tag])
    (s.store.unit.state = .idle → ∃ t, exec (.pause page tag) s = .next t ∧ s.refusedTo t tag .state 0) ∧
    (s.store.unit.state = .gathering → exec (.pause page tag) s = .next { s with
      store.unit := { s.store.unit with state := .paused, window := none, work := none }, interp := pause }) ∧
    (s.store.unit.state = .erasing → exec (.pause page tag) s = .next { s with
      store.unit := { s.store.unit with state := .pausing }, interp := pause }) ∧
    (s.store.unit.state = .pausing ∨ s.store.unit.state = .paused →
      exec (.pause page tag) s = .next { s with interp := pause }) ∧
    (s.store.unit.state ≠ .paused → ∃ t, exec (.resume page tag) s = .next t ∧ s.refusedTo t tag .state 0) ∧
    (s.store.unit.state = .paused → ∀ n : SlotNum, s.store.unit.work = some n →
      exec (.resume page tag) s = .next
        { s.updSlot n (fun x => { x with state := .erasing }) with
          store.unit := { s.store.unit with state := .erasing }, interp := resume }) ∧
    (s.store.unit.state = .paused → s.store.unit.work = none → ∀ (n : SlotNum) (k : KeptState),
      (s.slot n).state = .queued k → (∀ m : SlotNum, m < n → ∀ j, (s.slot m).state ≠ .queued j) →
      exec (.resume page tag) s = .next
        { s.updSlot n (fun x => { x with state := .erasing }) with
          store.unit := { s.store.unit with state := .erasing, work := some n, attempts := 0 }, interp := resume })

/-! ## Orders -/

/-- R131, R137, R138: SETPOS, CURSOR and MESSAGE with operands in their ranges. -/
def Obligations.PositionAndMessageOrders : Prop :=
  ∀ (s : State) (t : Transaction) (k : Kind) (p : PageNum), s.orderDue t k → t.page = some p →
    k = .load ∨ k = .amend ∨ k = .reopen ∨ k = .post →
    (∀ row column : Byte, row.toNat ≤ 23 → column.toNat ≤ 79 →
      exec (.setpos row column) s = .next
        (s.withTxn { t.carried with writePos := row.toNat * 80 + column.toNat }) ∧
      (k ≠ .post → exec (.cursor row column) s = .next
        ((s.setPage p { s.page p with cursor := row.toNat * 80 + column.toNat }).withTxn t.carried))) ∧
    ∀ (n : Byte) (bytes : List Byte), n.toNat ≤ 56 → bytes.length = n.toNat →
      exec (.message n bytes) s = .next
        ((s.setPage p { s.page p with
          message := bytes.map fun b => if 0x20 ≤ b.toNat ∧ b.toNat ≤ 0x7E then b else 0x3F#8 }).withTxn t.carried)

/-- R131 to R134: TEXT, REPEAT and CLEAR write their codes from the write position on, after position 1919 at 0, and leave
the write position behind the last; in a POST an order one of whose cells lies in an ENTRY field is skipped whole. -/
def Obligations.TextOrdersWriteCells : Prop :=
  ∀ (s : State) (t : Transaction) (k : Kind) (p : PageNum) (c : Instr) (codes : List Byte), s.orderDue t k →
    t.page = some p → k = .load ∨ k = .amend ∨ k = .reopen ∨ k = .post → t.writePos < 1920 →
    (s.page p).cells.wf → codesWritten c = some codes →
    let after := (t.writePos + codes.length) % 1920
    (k ≠ .post ∨ (∀ i < codes.length, (s.page p).entryAt ((t.writePos + i) % 1920) = none) →
      ∃ cells : Cells, cells.wf ∧
        exec c s = .next
          ((s.setPage p { s.page p with cells := cells }).withTxn { t.carried with writePos := after }) ∧
        ∀ a, cells.read a =
          if a < 1920 ∧ (a + 1920 - t.writePos) % 1920 < codes.length then
            codes.getD ((a + 1920 - t.writePos) % 1920) 0x00#8
          else (s.page p).cells.read a) ∧
    (k = .post → (∃ i < codes.length, (s.page p).entryAt ((t.writePos + i) % 1920) ≠ none) →
      exec c s = .next (s.withTxn { t.skipped with writePos := after }))

/-- R124, R127, R128: what aborts a transaction of any kind, with its status and what the abort leaves (R127): START in the
order-code position, which opens the next transaction; a byte that is no order the kind allows; operands outside their
ranges (R31, R40, R117, R118, R131 to R133, R137, R138); DEFINE against the page in an AMEND or a REOPEN. No input is held
(R95). -/
def Obligations.RefusedOrdersAbort : Prop :=
  ∀ (s : State) (t : Transaction) (k : Kind), s.orderDue t k → s.nothingHeld →
    let paged := t.page ≠ none ∧ (k = .load ∨ k = .amend ∨ k = .reopen)
    let amending := t.page ≠ none ∧ (k = .amend ∨ k = .reopen)
    let posting := t.page ≠ none ∧ k = .post
    let storing := slotOfByte (t.operands.getD 0 0x00#8) ≠ none ∧ k = .store
    let allowed : List Byte := match k with
      | .load => [0x11#8, 0x12#8, 0x13#8, 0x14#8, 0x15#8, 0x16#8, 0x17#8, 0x18#8, 0x1B#8, 0x1D#8, 0x1E#8]
      | .amend | .reopen => [0x11#8, 0x12#8, 0x13#8, 0x14#8, 0x15#8, 0x16#8, 0x17#8, 0x18#8, 0x19#8, 0x1A#8, 0x1B#8,
          0x1C#8, 0x1E#8]
      | .post => [0x11#8, 0x12#8, 0x13#8, 0x14#8, 0x18#8, 0x19#8]
      | .store => [0x11#8, 0x12#8, 0x13#8, 0x14#8, 0x15#8, 0x17#8, 0x18#8, 0x1B#8, 0x1E#8]
      | .close | .restart | .setup | .query | .erase | .pause | .resume => []
    (∃ u, exec .aborted s = .next u ∧
      (s.afterAbort t k).closedTo u .header (some (Transaction.ofHeader [])) (.completion t.tag .aborted t.next)) ∧
    ∀ (c : Instr) (status : Status),
      ((∃ b : Byte, c = .badOrderCode b ∧ b ≠ 0x02#8 ∧ b ≠ 0x03#8 ∧ b ∉ allowed ∧ status = .badOrder) ∨
        (paged ∨ posting ∨ storing) ∧
          ((∃ row column : Byte, c = .setpos row column ∧ (23 < row.toNat ∨ 79 < column.toNat) ∧ status = .badPos) ∨
            (c = .text 0x00#8 [] ∧ status = .badPos) ∨
            (∃ (b : Byte) (n : BitVec 16), (c = .repeatChar b n ∨ c = .clear n) ∧ (n.toNat = 0 ∨ 1920 < n.toNat) ∧
              status = .badPos) ∨
            (∃ n : Byte, c = .message n [] ∧ 56 < n.toNat ∧ status = .badOrder)) ∨
        (paged ∨ storing) ∧
          ((∃ row column : Byte, c = .cursor row column ∧ (23 < row.toNat ∨ 79 < column.toNat) ∧ status = .badPos) ∨
            (∃ id : Byte, c = .select id ∧ 3 < id.toNat ∧ id ≠ 0xFF#8 ∧ status = .badOrder) ∨
            (∃ (id action count follow m : Byte) (members : List Byte), c = .chain id action count follow m members ∧
              members.length = m.toNat ∧ m.toNat ≤ 16 ∧ status = .badOrder ∧
              (3 < id.toNat ∨ 2 < action.toNat ∨ count.toNat = 0 ∨ m.toNat = 0)) ∨
            (∃ (id action count follow m : Byte), c = .chain id action count follow m [] ∧ 16 < m.toNat ∧
              status = .badOrder) ∨
            (∃ d : DefineOperands, c = .define d ∧ DefineFailsAlone d ∧ status = .badField)) ∨
        (amending ∨ posting) ∧ (∃ n code : Byte, c = .mark n code ∧ 99 < code.toNat ∧ status = .badOrder) ∨
        amending ∧
          ((∃ id : Byte, c = .unchain id ∧ 3 < id.toNat ∧ status = .badOrder) ∨
            ∃ (d : DefineOperands) (p : PageNum), c = .define d ∧ t.page = some p ∧ (s.page p).FieldLaw ∧
              (DefineFailsInPage d (s.page p) t.writePos ∧ status = .badField ∨
                ¬DefineFailsAlone d ∧ ¬DefineFailsInPage d (s.page p) t.writePos ∧ 256 ≤ s.recordsInUse ∧
                  status = .pool))) →
      ∃ u, exec c s = .next u ∧ (s.afterAbort t k).closedTo u .skipping none (.completion t.tag status t.next)

/-- R124, R127, R2, R31, R33, R117, R118, R165: what aborts a LOAD, with its status; the page is released, its serial kept.
The operands of SETPOS, TEXT, REPEAT, CLEAR, CURSOR and MESSAGE that abort it are in RefusedOrdersAbort. -/
def Obligations.FailingOrdersAbortALoad : Prop :=
  ∀ (s : State) (t : Transaction) (p : PageNum), s.orderDue t .load → t.page = some p → (s.page p).FieldLaw →
    ∀ (c : Instr) (status : Status),
      ((∃ b : Byte, c = .badOrderCode b ∧ status = .badOrder ∧ b ∉ [0x02#8, 0x03#8, 0x11#8, 0x12#8, 0x13#8, 0x14#8,
          0x15#8, 0x16#8, 0x17#8, 0x18#8, 0x1B#8, 0x1D#8, 0x1E#8]) ∨
        (∃ id : Byte, c = .select id ∧ 3 < id.toNat ∧ id ≠ 0xFF#8 ∧ status = .badOrder) ∨
        (∃ (id action count follow m : Byte) (members : List Byte), c = .chain id action count follow m members ∧
          members.length = m.toNat ∧ m.toNat ≤ 16 ∧ status = .badOrder ∧
          (3 < id.toNat ∨ 2 < action.toNat ∨ count.toNat = 0 ∨ m.toNat = 0)) ∨
        (∃ (id action count follow m : Byte), c = .chain id action count follow m [] ∧ 16 < m.toNat ∧
          status = .badOrder) ∨
        (∃ slot : Byte, c = .recall slot ∧ t.index ≠ 0 ∧ status = .badOrder) ∨
        (∃ slot : Byte, c = .recall slot ∧ t.index = 0 ∧ 23 < slot.toNat ∧ status = .badSlot) ∨
        (∃ n : SlotNum, c = .recall (byteOf n.val) ∧ t.index = 0 ∧
          ((s.slot n).state = .blank ∧ status = .badSlot ∨ (s.slot n).state = .failed ∧ status = .badSlot ∨
            (s.slot n).state = .recording ∧ status = .slotBusy ∨
            (s.slot n).state.inEraseWork = true ∧ status = .slotBusy ∨
            (s.slot n).state = .filled ∧ status = .busy ∧
              (s.store.unit.state = .erasing ∨ s.store.unit.state = .pausing))) ∨
        (∃ d : DefineOperands, c = .define d ∧ status = .badField ∧
          (DefineFailsAlone d ∨ DefineFailsInPage d (s.page p) t.writePos)) ∨
        (∃ d : DefineOperands, c = .define d ∧ status = .pool ∧ 256 ≤ s.recordsInUse ∧ ¬DefineFailsAlone d ∧
          ¬DefineFailsInPage d (s.page p) t.writePos)) →
      ∃ u, exec c s = .next u ∧ (s.setPage p { Page.blank with serial := (s.page p).serial }).closedTo u .skipping none
        (.completion t.tag status t.next)

/-- R26 to R33: a DEFINE that passes the checks enters the record its operands describe in the field list, at its place in
positional order; it writes no cell and leaves the write position. That the record of a class other than AMOUNT holds the
signed and zero-fill flags clear, scale 0 and bound 0, where R29 has these operands disregarded, is the model's choice (log
entry 16). -/
def Obligations.DefineCreatesTheField : Prop :=
  ∀ (s : State) (t : Transaction) (k : Kind) (p : PageNum) (d : DefineOperands) (f : Field), s.orderDue t k →
    t.page = some p → k = .load ∨ k = .amend ∨ k = .reopen → (s.page p).FieldLaw → s.recordsInUse < 256 →
    f.number = d.number.toNat → f.number ≤ 95 → f.start = t.writePos → f.length = d.length.toNat →
    1 ≤ f.length → f.length ≤ 240 → f.start + f.length ≤ 1920 →
    (f.intensity = .normal ∧ d.presentation.toNat % 4 = 0 ∨ f.intensity = .bright ∧ d.presentation.toNat % 4 = 1 ∨
      f.intensity = .hidden ∧ d.presentation.toNat % 4 = 2) →
    f.blink = d.presentation.getLsbD 2 → f.modified = d.flags.getLsbD 6 →
    (∀ h ∈ (s.page p).fields, h.number ≠ f.number ∧ (h.start + h.length ≤ f.start ∨ f.start + f.length ≤ h.start)) →
    (f.entry = none ∧ d.kind = 0x00#8 ∨
      d.kind = 0x01#8 ∧ ∃ e : EntryItems, f.entry = some e ∧
        e.source = (if d.source = 0x00#8 then .key else if d.source = 0x01#8 then .scan else .both) ∧
        d.source.toNat ≤ 2 ∧
        e.exitOption = (if d.exitOption = 0x00#8 then .nothing else if d.exitOption = 0x01#8 then .attn else .send) ∧
        d.exitOption.toNat ≤ 2 ∧
        e.check = (if d.check = 0x00#8 then .noCheck else if d.check = 0x01#8 then .m10 else .m11) ∧
        d.check.toNat ≤ 2 ∧
        e.mandatory = d.flags.getLsbD 0 ∧ e.mustFill = d.flags.getLsbD 1 ∧ e.autoSkip = d.flags.getLsbD 2 ∧
        e.doubleRead = d.flags.getLsbD 3 ∧ e.touched = false ∧ e.checkError = none ∧ e.hostMark = none ∧
        (if d.cls = 0x03#8 then
          e.cls = .amount ∧ e.signed = d.flags.getLsbD 4 ∧ e.zeroFill = d.flags.getLsbD 5 ∧
          e.scale = d.scale.toNat ∧ e.bound = d.bound.toNat ∧ e.check = .noCheck ∧ 2 ≤ f.length ∧ f.length ≤ 20 ∧
          e.scale ≤ 4 ∧ e.scale < f.length ∧ e.bound ≤ 999999999
        else
          d.cls.toNat < 3 ∧ e.signed = false ∧ e.zeroFill = false ∧ e.scale = 0 ∧ e.bound = 0 ∧
          e.cls = (if d.cls = 0x00#8 then .alpha else if d.cls = 0x01#8 then .code else .digits) ∧
          (e.cls = .alpha → e.check = .noCheck) ∧ (e.cls = .code → e.check ≠ .m10)) ∧
        (if d.continuation = 0xFF#8 then e.continuation = none
        else
          e.continuation = some d.continuation.toNat ∧ e.cls = .alpha ∧
          (∃ h ∈ (s.page p).fields, h.number = d.continuation.toNat ∧ h.isAlpha = true ∧
            f.start + f.length ≤ h.start) ∧
          ∀ h ∈ (s.page p).fields, h.continuation ≠ some d.continuation.toNat)) →
    ∃ fields : List Field,
      exec (.define d) s = .next ((s.setPage p { s.page p with fields := fields }).withTxn t.carried) ∧
      fields.Perm (f :: (s.page p).fields) ∧ fields.Pairwise fun x y => x.start < y.start

/-- R35 to R37: DROP of every field, of a number not in use, and of a field with its links and its place in a chain. -/
def Obligations.DropReleasesFields : Prop :=
  ∀ (s : State) (t : Transaction) (k : Kind) (p : PageNum), s.orderDue t k → t.page = some p →
    k = .load ∨ k = .amend ∨ k = .reopen → (s.page p).FieldLaw → (s.page p).ChainLaw →
    (exec (.drop 0xFF#8) s = .next
      { (s.setPage p { s.page p with fields := [], chains := Vector.replicate 4 none, current := none }).withTxn
          t.carried with scan := s.scanWithout p fun _ => true }) ∧
    ∀ n : Byte, n ≠ 0xFF#8 →
      ((∀ f ∈ (s.page p).fields, f.number ≠ n.toNat) → exec (.drop n) s = .next (s.withTxn t.skipped)) ∧
      ((∃ f ∈ (s.page p).fields, f.number = n.toNat) →
        let fields := ((s.page p).fields.filter fun f => f.number ≠ n.toNat).map fun f =>
          if f.continuation = some n.toNat then { f with entry := f.entry.map fun e => { e with continuation := none } }
          else f
        ((∀ (c : ChainId) (ch : Chain), (s.page p).chains[c.val] = some ch → n.toNat ∉ ch.members) →
          exec (.drop n) s = .next
            { (s.setPage p { s.page p with fields := fields }).withTxn t.carried with
              scan := s.scanWithout p fun m => m == n.toNat }) ∧
        ∀ (c : ChainId) (ch : Chain) (i : Nat), (s.page p).chains[c.val] = some ch →
          ch.members[i]? = some n.toNat →
          let index := if i < ch.index then ch.index - 1 else ch.index
          let rest : Option Chain :=
            if ch.members.length = 1 then none
            else some { ch with
              members := ch.members.eraseIdx i
              index := if index = ch.members.length - 1 then 0 else index }
          exec (.drop n) s = .next
            { (s.setPage p { s.page p with
                fields := fields
                chains := (s.page p).chains.set c.val rest
                current := if rest = none ∧ (s.page p).current = some c then none
                  else (s.page p).current }).withTxn t.carried with
              scan := s.scanWithout p fun m => m == n.toNat })

/-- R39, R40: MARK sets or clears the host mark of an ENTRY field and nothing else; UNMODIFY clears modified tags and nothing
else; a number that names no such field skips the order. -/
def Obligations.MarkAndUnmodify : Prop :=
  ∀ (s : State) (t : Transaction) (k : Kind) (p : PageNum) (n : Byte), s.orderDue t k → t.page = some p →
    k = .amend ∨ k = .reopen ∨ k = .post → (s.page p).FieldLaw →
    (∀ code : Byte, code.toNat ≤ 99 →
      ((∃ f ∈ (s.page p).fields, f.number = n.toNat ∧ f.entry ≠ none) →
        exec (.mark n code) s = .next
          ((s.setPage p { s.page p with fields := (s.page p).fields.map fun f =>
            if f.number = n.toNat then
              { f with entry := f.entry.map fun e =>
                { e with hostMark := if code = 0x00#8 then none else some code.toNat } }
            else f }).withTxn t.carried)) ∧
      ((∀ f ∈ (s.page p).fields, f.number = n.toNat → f.entry = none) →
        exec (.mark n code) s = .next (s.withTxn t.skipped))) ∧
    (k ≠ .post →
      exec (.unmodify 0xFF#8) s = .next
        ((s.setPage p { s.page p with
          fields := (s.page p).fields.map fun f => { f with modified := false } }).withTxn t.carried) ∧
      (n ≠ 0xFF#8 → (∃ f ∈ (s.page p).fields, f.number = n.toNat) →
        exec (.unmodify n) s = .next
          ((s.setPage p { s.page p with fields := (s.page p).fields.map fun f =>
            if f.number = n.toNat then { f with modified := false } else f }).withTxn t.carried)) ∧
      (n ≠ 0xFF#8 → (∀ f ∈ (s.page p).fields, f.number ≠ n.toNat) →
        exec (.unmodify n) s = .next (s.withTxn t.skipped)))

/-- R117: a CHAIN whose members are distinct ENTRY fields that take scans and belong to no other chain defines the chain,
its index 0 and its remaining count the count; one whose members are not is skipped. -/
def Obligations.ChainOrderDefinesTheChain : Prop :=
  ∀ (s : State) (t : Transaction) (k : Kind) (p : PageNum) (c : ChainId) (a : Action) (count follow m : Byte)
    (members : List Byte), s.orderDue t k → t.page = some p → k = .load ∨ k = .amend ∨ k = .reopen →
    (s.page p).FieldLaw → count ≠ 0x00#8 → 1 ≤ m.toNat → m.toNat ≤ 16 → members.length = m.toNat →
    let action : Byte := match a with | .nothing => 0x00#8 | .attn => 0x01#8 | .send => 0x02#8
    let admitted := members.Nodup ∧ ∀ b ∈ members,
      (∃ f ∈ (s.page p).fields, f.number = b.toNat ∧ f.entry.any (·.source ≠ .key) = true) ∧
      ∀ (d : ChainId) (ch : Chain), (s.page p).chains[d.val] = some ch → b.toNat ∈ ch.members → d = c
    (admitted →
      exec (.chain (byteOf c.val) action count follow m members) s = .next
        ((s.setPage p { s.page p with chains := (s.page p).chains.set c.val (some
          { action := a, count := count.toNat, remaining := count.toNat, follow := follow != 0x00#8,
            members := members.map (·.toNat), index := 0 }) }).withTxn t.carried)) ∧
    (¬admitted →
      exec (.chain (byteOf c.val) action count follow m members) s = .next (s.withTxn t.skipped))

/-- R118: UNCHAIN removes a chain and SELECT names the current chain; an id without a chain skips the order. -/
def Obligations.UnchainAndSelect : Prop :=
  ∀ (s : State) (t : Transaction) (k : Kind) (p : PageNum) (c : ChainId), s.orderDue t k → t.page = some p →
    k = .load ∨ k = .amend ∨ k = .reopen →
    (exec (.select 0xFF#8) s = .next ((s.setPage p { s.page p with current := none }).withTxn t.carried)) ∧
    ((s.page p).chains[c.val] ≠ none →
      exec (.select (byteOf c.val)) s = .next
        ((s.setPage p { s.page p with current := some c }).withTxn t.carried) ∧
      (k ≠ .load → exec (.unchain (byteOf c.val)) s = .next
        ((s.setPage p { s.page p with
          chains := (s.page p).chains.set c.val none
          current := if (s.page p).current = some c then none else (s.page p).current }).withTxn t.carried))) ∧
    ((s.page p).chains[c.val] = none →
      exec (.select (byteOf c.val)) s = .next (s.withTxn t.skipped) ∧
      (k ≠ .load → exec (.unchain (byteOf c.val)) s = .next (s.withTxn t.skipped)))

/-- R166: RECALL of a template does what its recorded orders would do one after another, all with the RECALL's order index:
an empty template does nothing, and a template of one order and a rest does the order and recalls the rest, unless the
order ends the LOAD. -/
def Obligations.RecallReplaysTheTemplate : Prop :=
  ∀ (s : State) (t : Transaction) (p : PageNum) (n : SlotNum), s.orderDue t .load → t.page = some p → t.index = 0 →
    (s.slot n).state = .filled → s.store.unit.state ≠ .erasing → s.store.unit.state ≠ .pausing →
    ((s.slot n).content = [] → exec (.recall (byteOf n.val)) s = .next (s.withTxn t.carried)) ∧
    ∀ (c : Instr) (bytes : List Byte) (rest : List (List Byte)) (m : SlotNum) (u : State), orderBytes c = some bytes →
      (s.slot n).content = bytes :: rest → (s.slot m).state = .filled → (s.slot m).content = rest →
      exec c s = .next u →
      (∀ r, u.interp.txn = some r →
        exec (.recall (byteOf n.val)) s = exec (.recall (byteOf m.val)) (u.withTxn { r with index := 0 })) ∧
      (u.interp.txn = none → exec (.recall (byteOf n.val)) s = .next u)

/-- R162, R163: an order of a STORE that keeps the form is appended to the slot as received, while the slot's bytes stay
within 3072; beyond, the STORE aborts STOREFULL and its slot is FAILED. -/
def Obligations.StoreRecordsOrders : Prop :=
  ∀ (s : State) (t : Transaction) (n : SlotNum) (c : Instr) (bytes : List Byte), s.orderDue t .store →
    slotOfByte (t.operands.getD 0 0x00#8) = some n → orderBytes c = some bytes →
    (∀ row column : Byte, c = .setpos row column ∨ c = .cursor row column → row.toNat ≤ 23 ∧ column.toNat ≤ 79) →
    (∀ (b : Byte) (count : BitVec 16), c = .repeatChar b count ∨ c = .clear count →
      1 ≤ count.toNat ∧ count.toNat ≤ 1920) →
    (∀ d : DefineOperands, c = .define d → fieldOf d 0 ≠ none) →
    (∀ (id action count follow m : Byte) (members : List Byte), c = .chain id action count follow m members →
      id.toNat ≤ 3 ∧ action.toNat ≤ 2 ∧ 1 ≤ count.toNat) →
    (∀ id : Byte, c = .select id → id.toNat ≤ 3 ∨ id = 0xFF#8) →
    ((s.slot n).used + bytes.length ≤ 3072 →
      exec c s = .next ((s.updSlot n fun x =>
        { x with content := x.content ++ [bytes], used := x.used + bytes.length }).withTxn t.carried)) ∧
    (3072 < (s.slot n).used + bytes.length →
      ∃ u, exec c s = .next u ∧
        (s.updSlot n fun x => { x with state := .failed }).closedTo u .skipping none
          (.completion t.tag .storeFull t.next))

/-! ## Ends of transactions -/

/-- R9, R13, R6, R126: the END of a LOAD and of a REOPEN. With a page ACTIVE the named page joins the ready queue, at the
tail after a LOAD and at the head after a REOPEN; with none it becomes ACTIVE. -/
def Obligations.LoadAndReopenEnds : Prop :=
  ∀ (s : State) (t : Transaction) (k : Kind) (p : PageNum), s.orderDue t k → t.page = some p →
    k = .load ∨ k = .reopen → (k = .load → (s.page p).timer = .absent) →
    let report := Report.completion t.tag t.status (t.firstSkipped.getD 0)
    (∀ a : PageNum, s.active = some a → a ≠ p → (s.page a).inFlight = false →
      ∃ u, exec .endTransaction s = .next u ∧
        State.closedTo
          { s.setPage p { s.page p with state := .ready, inFlight := false, timer := .absent } with
            ready := if k = .load then s.ready ++ [p] else p :: s.ready }
          u .between none report) ∧
    (s.active = none → s.ready = [] → s.scan.buffer = none →
      ∃ u, exec .endTransaction s = .next u ∧
        State.closedTo
          { s.setPage p { s.page p with state := .active, inFlight := false, timer := .absent } with
            active := some p
            noPage := none
            keys := { s.keys with queue := [] }
            scan := { s.scan with confirm := none, window := none } }
          u .between none report)

/-- R8, R10, R11, R14, R126, R140, R164: the END of CLOSE, POST, STORE, ERASE, PAUSE, RESUME and SETUP, and of an AMEND at
whose END no input is held (with held input: KeyTypedAheadActsAtEnd). -/
def Obligations.OtherEnds : Prop :=
  ∀ (s : State) (t : Transaction) (k : Kind), s.orderDue t k →
    let report := Report.completion t.tag t.status (t.firstSkipped.getD 0)
    (∀ p : PageNum, t.page = some p → k = .close → ∃ u, exec .endTransaction s = .next u ∧
      (s.setPage p { Page.blank with serial := (s.page p).serial }).closedTo u .between none report) ∧
    (∀ p : PageNum, t.page = some p → k = .post ∨ k = .amend ∧ s.nothingHeld →
      ∃ u, exec .endTransaction s = .next u ∧
        (s.setPage p { s.page p with inFlight := false }).closedTo u .between none report) ∧
    (∀ n : SlotNum, k = .store → slotOfByte (t.operands.getD 0 0x00#8) = some n →
      ∃ u, exec .endTransaction s = .next u ∧
        (s.updSlot n fun x => { x with state := .filled }).closedTo u .between none report) ∧
    (k = .erase ∨ k = .pause ∨ k = .resume →
      ∃ u, exec .endTransaction s = .next u ∧ s.closedTo u .between none report) ∧
    (∀ limit window typeAhead : Byte, k = .setup → t.operands = [limit, window, typeAhead] →
      ∃ u, exec .endTransaction s = .next u ∧
        State.closedTo
          { s with
            interp := { s.interp with
              replyLimit := limit.toNat
              confirmWindow := max 1 (min window.toNat 50) }
            keys := { s.keys with typeAhead := typeAhead != 0x00#8 } }
          u .between none report)

/-- R15, R141, R158: the END of a RESTART. That padding owed already stays owed, and what the head report still owes is
added to it, is the model's reading of R158 (log entry 11). -/
def Obligations.RestartEnds : Prop :=
  ∀ (s : State) (t : Transaction), s.orderDue t .restart →
    ∃ u, exec .endTransaction s = .next u ∧
      (∀ p : PageNum, u.page p = Page.blank) ∧ u.ready = [] ∧ u.active = none ∧ u.noPage = none ∧
      u.keys = { s.keys with queue := [] } ∧
      u.scan = { s.scan with
        buffer := none
        confirm := none
        window := none
        answers := s.scan.answers ++ if s.scan.buffer = none then [] else [0x15#8, 0x01#8] } ∧
      u.interp = { s.interp with state := .between, txn := none } ∧ u.store = s.store ∧
      u.reports.queue = [.completion t.tag t.status (t.firstSkipped.getD 0)] ∧ u.reports.taken = 0 ∧
      u.reports.notice = none ∧
      (s.reports.taken = 0 → u.reports.padding = s.reports.padding) ∧
      (∀ r rest, s.reports.queue = r :: rest → s.reports.taken ≠ 0 →
        u.reports.padding = s.reports.padding + ((s.reportBytes r).length - s.reports.taken))

/-- R142, R153: the END of a QUERY queues a STATUS report of the FC412 as it stands, whose body is 300 bytes and one byte
for each page of the ready queue. -/
def Obligations.QueryEnds : Prop :=
  ∀ (s : State) (t : Transaction), s.orderDue t .query →
    ∃ body : StatusReport,
      (∃ u, exec .endTransaction s = .next u ∧ s.closedTo u .between none (.status body)) ∧
      body.pages = ([0, 1, 2, 3, 4, 5] : List PageNum).map (fun p =>
        { state := (s.page p).state, fieldCount := (s.page p).fields.length, serial := (s.page p).serial,
          overdue := (s.page p).overdue, unsent := (s.page p).unsent }) ∧
      body.ready = s.ready ∧ body.active = s.active ∧ body.freeRecords = 256 - s.recordsInUse ∧
      body.reports = s.reports.queue.length ∧ body.unit = s.store.unit.state ∧
      body.slots = (List.finRange 24).map (fun n =>
        { state := (s.slot n).state, used := (s.slot n).used, label := (s.slot n).label }) ∧
      ((∀ n : SlotNum, (s.slot n).label.length = 8) →
        ∀ u : State, (u.reportBytes (.status body)).length = 303 + s.ready.length)

/-- R95 to R97: what the operator typed and scanned during the inhibit is carried out at the end of it, whether END, an abort
by START or a stream reset ends the AMEND. The keys: with one more key at the tail of the queue, that key acts after all
before it exactly as if it were typed right then, and is discarded when the page has left ACTIVE or entered error hold. The
scan: with no key queued it acts exactly as a frame that arrives right after. -/
def Obligations.KeyTypedAheadActsAtEnd : Prop :=
  ∀ (s : State) (t : Transaction) (p : PageNum) (ending : Instr), s.orderDue t .amend → t.page = some p →
    s.active = some p → (s.page p).inFlight = true → (s.page p).state ≠ .sending → p ∉ s.ready →
    s.keys.frame = .absent → ending = .endTransaction ∨ ending = .aborted ∨ ending = .streamReset →
    (∀ (c : Instr) (b : Byte) (front : List Byte), s.keys.queue = front ++ [b] → keyCode c = some b → b ≠ 0x1D#8 →
      (b = 0x8D#8 → front = [] ∧ s.scan.buffer = none) →
      ∃ u, exec ending { s with keys := { s.keys with queue := front } } = .next u ∧
        exec ending s =
          if u.active = some p ∧ ((u.page p).hold = none ∨ b = 0x8D#8) then exec c u else .next u) ∧
    ∀ characters : List Byte, s.scan.buffer = some characters → s.keys.queue = [] → s.scan.receiving = none →
      (s.page p).hold = none → 1 ≤ characters.length → characters.length ≤ 64 →
      ∃ u, exec ending { s with scan := { s.scan with buffer := none } } = .next u ∧
        exec ending s = exec (.scanFrame (byteOf characters.length) characters) u

/-! ## Reports -/

/-- R146, R158: the controller takes owed padding first, then the head report's bytes in order; with none offered it takes
nothing (log entry 10). -/
def Obligations.ReportBytesAreTakenInOrder : Prop :=
  ∀ s : State,
    (∀ n : Nat, s.reports.padding = n + 1 → exec .reportByteTaken s = .next
      { s with
        reports := { s.reports with padding := n }
        outputs := { s.outputs with stream := some 0x00#8 } }) ∧
    (s.reports.padding = 0 → s.reports.queue = [] → exec .reportByteTaken s = .next
      { s with outputs := { s.outputs with stream := none } }) ∧
    ∀ (r : Report) (rest : List Report), s.reports.padding = 0 → s.reports.queue = r :: rest →
      (∀ b : Byte, (s.reportBytes r)[s.reports.taken]? = some b → s.reports.taken + 1 < (s.reportBytes r).length →
        exec .reportByteTaken s = .next
          { s with
            reports := { s.reports with taken := s.reports.taken + 1 }
            outputs := { s.outputs with stream := some b } }) ∧
      (s.reports.taken + 1 = (s.reportBytes r).length → s.nothingWaits → (∀ p, Report.isEntryOf p r = false) →
        exec .reportByteTaken s = .next
          { s with
            reports := { s.reports with queue := rest, taken := 0 }
            outputs := { s.outputs with stream := (s.reportBytes r).getLast? } })

/-- R146, R17, R20, R149: the report whose last byte is taken leaves the queue; the last byte of an entry report makes its page
AWAITING with the reply limit on its timer, and no other kind has a further effect. R156: the entry that the last byte of any
report frees, an entry report's among them, goes to the stalled report, else to the pending erase notice, else to the first
attention cause of the lowest page, in the order KEY, CHAIN0 to CHAIN3, EXIT; with nothing waiting it stays free. -/
def Obligations.LastReportByteFreesTheEntry : Prop :=
  ∀ (s left : State) (r : Report) (rest : List Report), s.reports.padding = 0 → s.reports.queue = r :: rest →
    s.reports.taken + 1 = (s.reportBytes r).length →
    ((∃ e : EntryReport, r = .entry e ∧ left = s.setPage e.page { s.page e.page with
        state := .awaiting
        timer := if s.interp.replyLimit = 0 then .notRunning else .remaining (s.interp.replyLimit * 1000) }) ∨
      (∀ p, Report.isEntryOf p r = false) ∧ left = s) →
    let out : PortOutputs := { s.outputs with stream := (s.reportBytes r).getLast? }
    (s.nothingWaits → exec .reportByteTaken s = .next
      { left with reports := { s.reports with queue := rest, taken := 0 }, outputs := out }) ∧
    (∀ x : Report, s.interp.stalled = some x → exec .reportByteTaken s = .next
      { left with
        reports := { s.reports with queue := rest ++ [x], taken := 0 }
        interp := { s.interp with stalled := none }
        outputs := out }) ∧
    (∀ pairs, s.interp.stalled = none → s.reports.notice = some pairs → exec .reportByteTaken s = .next
      { left with
        reports := { s.reports with queue := rest ++ [.eraseDone pairs], taken := 0, notice := none }
        outputs := out }) ∧
    ∀ (p : PageNum) (cause : Cause) (still : AttentionSet), s.interp.stalled = none → s.reports.notice = none →
      (∀ q : PageNum, q < p → (s.page q).attention = .empty) →
      let set := (s.page p).attention
      (set.key = true ∧ cause = .key ∧ still = { set with key := false } ∨
        (∃ c : ChainId, set.key = false ∧ (∀ d : ChainId, d < c → set.chains[d.val] = false) ∧
          set.chains[c.val] = true ∧ cause = .chain c ∧ still = { set with chains := set.chains.set c.val false }) ∨
        ∃ n : Nat, set.key = false ∧ (∀ d : ChainId, set.chains[d.val] = false) ∧ set.exit = some n ∧
          cause = .exit n ∧ still = { set with exit := none }) →
      exec .reportByteTaken s = .next
        { left.setPage p { left.page p with attention := still } with
          reports := { s.reports with queue := rest ++ [.attention p cause (s.page p).serial], taken := 0 }
          outputs := out }

/-- R146, R147, R148, R150, R152 to R155 and the byte layouts and codes of 11.3: the six kinds of report, byte by byte, and
the tables of status, page state, erase unit state and slot state codes. -/
def Obligations.ReportLayouts : Prop :=
  ∀ s : State,
    (∀ (tag : Byte) (status : Status) (detail : Nat), s.reportBytes (.completion tag status detail) =
      [0x43#8, 0x00#8, 0x03#8, tag, status.code, byteOf detail]) ∧
    ([Status.ok, .someSkipped, .badPage, .state, .stale, .late, .busy, .badOrder, .badPos, .badField, .pool, .badSlot,
        .slotBusy, .notBlank, .storeFull, .aborted].map Status.code =
      [0x00#8, 0x01#8, 0x10#8, 0x11#8, 0x12#8, 0x13#8, 0x14#8, 0x20#8, 0x21#8, 0x22#8, 0x23#8, 0x30#8, 0x31#8, 0x32#8,
        0x33#8, 0x3F#8]) ∧
    (∀ (p : PageNum) (serial : Byte), s.reportBytes (.attention p .key serial) =
      [0x41#8, 0x00#8, 0x04#8, byteOf p.val, 0x00#8, 0x00#8, serial]) ∧
    (∀ (p : PageNum) (c : ChainId) (serial : Byte), s.reportBytes (.attention p (.chain c) serial) =
      [0x41#8, 0x00#8, 0x04#8, byteOf p.val, 0x01#8, byteOf c.val, serial]) ∧
    (∀ (p : PageNum) (n : Nat) (serial : Byte), s.reportBytes (.attention p (.exit n) serial) =
      [0x41#8, 0x00#8, 0x04#8, byteOf p.val, 0x02#8, byteOf n, serial]) ∧
    s.reportBytes .start = [0x42#8, 0x00#8, 0x00#8] ∧
    (∀ pairs : List (SlotNum × EraseOutcome), pairs.length ≤ 24 →
      (s.reportBytes (.eraseDone pairs)).take 4 =
        [0x44#8, 0x00#8, byteOf (1 + 2 * pairs.length), byteOf pairs.length] ∧
      (s.reportBytes (.eraseDone pairs)).length = 4 + 2 * pairs.length ∧
      ∀ (i : Nat) (n : SlotNum) (o : EraseOutcome), pairs[i]? = some (n, o) →
        (s.reportBytes (.eraseDone pairs))[4 + 2 * i]? = some (byteOf n.val) ∧
        (s.reportBytes (.eraseDone pairs))[5 + 2 * i]? = some (if o = .blank then 0x00#8 else 0x01#8)) ∧
    (∀ e : EntryReport,
      let size (fields : List SentField) : Nat := (fields.map fun f => 2 + f.length).sum
      let bytes := s.reportBytes (.entry e)
      bytes.length = 9 + size e.fields ∧
      bytes.take 9 = [0x45#8, byteOf ((6 + size e.fields) / 256), byteOf (6 + size e.fields), byteOf e.page.val,
        e.serial, byteOf e.sendKey, byteOf e.row, byteOf e.column, byteOf e.fields.length] ∧
      ∀ (i : Nat) (f : SentField), e.fields[i]? = some f →
        let at_ := 9 + size (e.fields.take i)
        bytes[at_]? = some (byteOf f.number) ∧ bytes[at_ + 1]? = some (byteOf f.length) ∧
        ∀ j < f.length, bytes[at_ + 2 + j]? = some
          (if (s.page e.page).cells.read (f.start + j) = 0x00#8 then 0x20#8
          else (s.page e.page).cells.read (f.start + j))) ∧
    (∀ r : StatusReport, r.pages.length = 6 → r.slots.length = 24 → (∀ x ∈ r.slots, x.label.length = 8) →
      let bytes := s.reportBytes (.status r)
      let n := r.ready.length
      bytes.length = 303 + n ∧ bytes.take 3 = [0x53#8, byteOf ((300 + n) / 256), byteOf (300 + n)] ∧
      (∀ (i : Nat) (g : PageStatus), r.pages[i]? = some g → (bytes.drop (3 + 5 * i)).take 5 =
        [g.state.code, byteOf g.fieldCount, g.serial, if g.overdue then 0x01#8 else 0x00#8,
          if g.unsent then 0x01#8 else 0x00#8]) ∧
      bytes[33]? = some (byteOf n) ∧
      (∀ (j : Nat) (p : PageNum), r.ready[j]? = some p → bytes[34 + j]? = some (byteOf p.val)) ∧
      (bytes.drop (34 + n)).take 5 =
        [match r.active with | some p => byteOf p.val | none => 0xFF#8, byteOf (r.freeRecords / 256),
          byteOf r.freeRecords, byteOf r.reports, r.unit.code] ∧
      ∀ (i : Nat) (x : SlotStatus), r.slots[i]? = some x →
        (bytes.drop (39 + n + 11 * i)).take 11 = x.state.code :: byteOf (x.used / 256) :: byteOf x.used :: x.label) ∧
    [PageState.free, .loading, .ready, .active, .sending, .awaiting].map PageState.code =
      [0x00#8, 0x01#8, 0x02#8, 0x03#8, 0x04#8, 0x05#8] ∧
    [UnitState.idle, .gathering, .erasing, .pausing, .paused].map UnitState.code =
      [0x00#8, 0x01#8, 0x02#8, 0x03#8, 0x04#8] ∧
    ∀ prior : KeptState,
      [SlotState.blank, .recording, .filled, .failed, .queued prior, .erasing, .held].map SlotState.code =
        [0x00#8, 0x01#8, 0x02#8, 0x03#8, 0x04#8, 0x05#8, 0x06#8]

/-! ## Keys -/

/-- R47, R51, R53: the arrow keys move the cursor one place, with the wraps, and the place is entered. The move is no exit of
a touched field: the field under the cursor is untouched, or the move stays inside it. -/
def Obligations.ArrowKeysMoveTheCursor : Prop :=
  ∀ (s : State) (p : PageNum) (c : Instr) (d : Nat), s.editing p → (s.page p).cursor < 1920 →
    (s.page p).ArrowGoesTo c d → (s.page p).movesUnchecked d →
    ∃ fields chains current, (s.page p).entersTo d fields chains current ∧
      exec c s = .next (s.setPage p
        { s.page p with cursor := d, fields := fields, chains := chains, current := current, notice := none })

/-- R48 to R51, R53: where TAB, BACKTAB, HOME and NEWLINE go among the ENTRY fields, on a page with some and with none, by a
move that is no exit of a touched field. -/
def Obligations.FieldKeysMoveTheCursor : Prop :=
  ∀ (s : State) (p : PageNum) (c : Instr) (d : Nat), s.editing p → (s.page p).FieldLaw →
    (s.page p).FieldKeyGoesTo c d → (s.page p).movesUnchecked d →
    ∃ fields chains current, (s.page p).entersTo d fields chains current ∧
      exec c s = .next (s.setPage p
        { s.page p with cursor := d, fields := fields, chains := chains, current := current, notice := none })

/-- R47 to R52, R54, R65, R70 to R77: a cursor key, any of the eight, out of a touched field. When the exit check passes, the
move is made, an AMOUNT field's cells standing as they were normalised and the field's touched and check-error marks cleared,
and then the field's exit option is carried out: none, an attention, or a send with id 14. When it fails, the cursor stays
and the page enters error hold with the check's code (Safety's ExitTo). What the check makes of the field's codes: E-FORM,
E-CHECK and E-FILL in an ALPHA, CODE or DIGITS field, and the normal form or E-FORM, E-SCALE, E-RANGE and E-FILL in an AMOUNT
field. -/
def Obligations.ExitChecksTheTouchedField : Prop :=
  ∀ (s : State) (p : PageNum) (f : Field) (e : EntryItems) (c : Instr) (d : Nat), s.editing p → (s.page p).FieldLaw →
    (s.page p).cells.wf → (s.page p).entryAt (s.page p).cursor = some f → f.entry = some e → e.touched = true →
    (s.page p).ArrowGoesTo c d ∨ (s.page p).FieldKeyGoesTo c d → d < f.start ∨ f.start + f.length ≤ d →
    let g := s.page p
    let codes := (List.range f.length).map fun i => g.cells.read (f.start + i)
    (∃ t, exec c s = .next t ∧ (s.setPage p { g with notice := none }).ExitTo p f e d t) ∧
    let blank := ∀ b ∈ codes, b = 0x00#8 ∨ b = 0x20#8
    let filled := e.mustFill = false ∨ 0x00#8 ∉ codes
    (blank → exitCheck e f.length codes = .pass codes) ∧
    (∀ admitted : Byte → Prop,
      (e.cls = .alpha ∧ (∀ b, admitted b ↔ 0x20 ≤ b.toNat ∧ b.toNat ≤ 0x7E) ∨
        e.cls = .code ∧ (∀ b, admitted b ↔ 0x30 ≤ b.toNat ∧ b.toNat ≤ 0x39 ∨ 0x41 ≤ b.toNat ∧ b.toNat ≤ 0x5A ∨
          b = 0x2D#8) ∨
        e.cls = .digits ∧ (∀ b, admitted b ↔ 0x30 ≤ b.toNat ∧ b.toNat ≤ 0x39)) →
      let formed := ∀ b ∈ codes, b = 0x00#8 ∨ b = 0x20#8 ∨ admitted b
      let checked := e.check = .noCheck ∨ checkDigitHolds e.check e.cls codes = true
      (¬formed → exitCheck e f.length codes = .fail .eForm) ∧
      (formed → ¬blank → ¬checked → exitCheck e f.length codes = .fail .eCheck) ∧
      (formed → ¬blank → checked → ¬filled → exitCheck e f.length codes = .fail .eFill) ∧
      (formed → checked → filled → exitCheck e f.length codes = .pass codes)) ∧
    (e.cls = .amount → e.check = .noCheck → ¬blank →
      ((∀ a : AmountParsed, ¬a.Of e.signed codes) → exitCheck e f.length codes = .fail .eForm) ∧
      ∀ a : AmountParsed, a.Of e.signed codes →
        let magnitude := a.magnitude e.scale
        let sign : List Byte := if a.negative = true ∧ magnitude ≠ 0 then [0x2D#8] else []
        let text := magnitudeText magnitude e.scale
        let room := f.length - (sign.length + text.length)
        let inRange := (e.bound = 0 ∨ magnitude ≤ e.bound) ∧ sign.length + text.length ≤ f.length
        (e.scale < a.fraction.length → exitCheck e f.length codes = .fail .eScale) ∧
        (a.fraction.length ≤ e.scale → ¬inRange → exitCheck e f.length codes = .fail .eRange) ∧
        (a.fraction.length ≤ e.scale → inRange → ¬filled → exitCheck e f.length codes = .fail .eFill) ∧
        (a.fraction.length ≤ e.scale → inRange → filled → exitCheck e f.length codes = .pass
          (if e.zeroFill then sign ++ List.replicate room 0x30#8 ++ text
          else List.replicate room 0x20#8 ++ sign ++ text)))

/-- R56 to R59: a character that the class admits, folded in a CODE field, is written at the cursor, in insert mode with the
cells of the continuation group from the cursor on moved one place along the group. The field is modified and touched, its
host mark cleared; another field of the group is modified when a cell of it changed. Inside the field the cursor advances;
from its last cell it enters the continuation target, or else makes a TAB with auto-skip and a RIGHT without. -/
def Obligations.CharacterKeyWrites : Prop :=
  ∀ (s : State) (p : PageNum) (fs : List Field) (f : Field) (e : EntryItems) (b c : Byte) (k : Nat), s.editing p →
    (s.page p).FieldLaw → (s.page p).cells.wf → (s.page p).IsGroup fs → f ∈ fs →
    (s.page p).entryAt (s.page p).cursor = some f → f.entry = some e → e.source ≠ .scan → e.Admits b c →
    let g := s.page p
    let seq := groupCells fs
    seq[k]? = some g.cursor →
    (g.insert = true → ∀ a, seq.getLast? = some a → g.cells.read a = 0x00#8) →
    ∃ cells : Cells, cells.wf ∧ (∀ a, a ∉ seq → cells.read a = g.cells.read a) ∧
      (∀ i a, seq[i]? = some a → cells.read a =
        if i = k then c
        else if g.insert = true ∧ k < i then g.cells.read (seq.getD (i - 1) 0)
        else g.cells.read a) ∧
      let written := { g with cells := cells, fields := g.editedGroup fs f.number cells, notice := none }
      (g.cursor + 1 < f.start + f.length →
        exec (.characterKey b) s = .next (s.setPage p { written with cursor := g.cursor + 1 })) ∧
      (g.cursor + 1 = f.start + f.length →
        (∀ h ∈ fs, f.continuation = some h.number →
          ∃ fields chains current, written.entersTo h.start fields chains current ∧
            exec (.characterKey b) s = .next (s.setPage p
              { written with cursor := h.start, fields := fields, chains := chains, current := current })) ∧
        (f.continuation = none →
          exec (.characterKey b) s = exec (if e.autoSkip then .tab else .right) (s.setPage p written)))

/-- R56, R57, R60 to R63, R65: a key that acts on an entry field is refused with E-PROT where the cursor is in none; a
character with E-SRC in a field that only scans fill, with E-CLASS when the class refuses it, and in insert mode
with E-OVER when the last cell of the continuation group is not null. -/
def Obligations.RefusedKeysEnterErrorHold : Prop :=
  ∀ (s : State) (p : PageNum) (c : Instr) (code : ErrorCode), s.editing p →
    (((s.page p).entryAt (s.page p).cursor = none ∧ code = .eProt ∧
        (c = .delete ∨ c = .backspace ∨ c = .eraseEof ∨ c = .clearField ∨
          ∃ b : Byte, c = .characterKey b ∧ 0x20 ≤ b.toNat ∧ b.toNat ≤ 0x7E)) ∨
      ∃ (b : Byte) (f : Field) (e : EntryItems), c = .characterKey b ∧ 0x20 ≤ b.toNat ∧ b.toNat ≤ 0x7E ∧
        (s.page p).entryAt (s.page p).cursor = some f ∧ f.entry = some e ∧
        (e.source = .scan ∧ code = .eSrc ∨
          e.source ≠ .scan ∧ e.cls = .digits ∧ ¬(0x30 ≤ b.toNat ∧ b.toNat ≤ 0x39) ∧ code = .eClass ∨
          e.source ≠ .scan ∧ e.cls = .code ∧ code = .eClass ∧ b ≠ 0x2D#8 ∧
            ¬(0x30 ≤ b.toNat ∧ b.toNat ≤ 0x39) ∧ ¬(0x41 ≤ b.toNat ∧ b.toNat ≤ 0x5A) ∧
            ¬(0x61 ≤ b.toNat ∧ b.toNat ≤ 0x7A) ∨
          e.source ≠ .scan ∧ e.cls = .amount ∧ code = .eClass ∧ b ≠ 0x2E#8 ∧
            ¬(0x30 ≤ b.toNat ∧ b.toNat ≤ 0x39) ∧ ¬(b = 0x2D#8 ∧ e.signed = true) ∨
          e.source ≠ .scan ∧ (∃ x : Byte, e.Admits b x) ∧ (s.page p).insert = true ∧ code = .eOver ∧
            (s.page p).FieldLaw ∧ ∃ (fs : List Field) (a : Nat), (s.page p).IsGroup fs ∧ f ∈ fs ∧
              (groupCells fs).getLast? = some a ∧ (s.page p).cells.read a ≠ 0x00#8)) →
    exec c s = .next
      { s.setPage p ((s.page p).held code) with keys := { s.keys with queue := [] } }

/-- R59 to R63: the edit keys act on the continuation group that holds the cursor, in the order of its sequence of cells.
DELETE closes the sequence up at the cursor; BACKSPACE steps back one cell of the sequence, across a link as an entry into
the field before, and deletes there; ERASE-EOF nulls from the cursor on; CLEAR-FIELD nulls the group and goes to its start. -/
def Obligations.EditKeysActOnTheField : Prop :=
  ∀ (s : State) (p : PageNum) (fs : List Field) (f : Field) (k : Nat), s.editing p → (s.page p).FieldLaw →
    (s.page p).cells.wf → (s.page p).IsGroup fs → f ∈ fs → (s.page p).entryAt (s.page p).cursor = some f →
    let g := s.page p
    let seq := groupCells fs
    seq[k]? = some g.cursor →
    let closed (first : Nat) (cells : Cells) : Prop := cells.wf ∧ (∀ a, a ∉ seq → cells.read a = g.cells.read a) ∧
      ∀ i a, seq[i]? = some a → cells.read a =
        if i < first then g.cells.read a
        else if i + 1 < seq.length then g.cells.read (seq.getD (i + 1) 0)
        else 0x00#8
    let nulled (first : Nat) (cells : Cells) : Prop := cells.wf ∧ (∀ a, a ∉ seq → cells.read a = g.cells.read a) ∧
      ∀ i a, seq[i]? = some a → cells.read a = if i < first then g.cells.read a else 0x00#8
    let acted (n : Nat) (cells : Cells) (cursor : Nat) : State := s.setPage p
      { g with cells := cells, fields := g.editedGroup fs n cells, cursor := cursor, notice := none }
    (∃ cells : Cells, closed k cells ∧ exec .delete s = .next (acted f.number cells g.cursor)) ∧
    (g.cursor ≠ f.start →
      ∃ cells : Cells, closed (k - 1) cells ∧ exec .backspace s = .next (acted f.number cells (g.cursor - 1))) ∧
    (g.cursor = f.start → fs.head? = some f →
      ∃ cells : Cells, closed k cells ∧ exec .backspace s = .next (acted f.number cells g.cursor)) ∧
    (g.cursor = f.start → ∀ h ∈ fs, h.continuation = some f.number →
      ∃ (cells : Cells) (entered : List Field) (chains : Vector (Option Chain) 4) (current : Option ChainId),
        closed (k - 1) cells ∧ g.entersTo (h.start + h.length - 1) entered chains current ∧
        exec .backspace s = .next (s.setPage p
          { g with
            cells := cells
            fields := g.editedGroup fs h.number cells
            cursor := h.start + h.length - 1
            chains := chains
            current := current
            notice := none })) ∧
    (∃ cells : Cells, nulled k cells ∧ exec .eraseEof s = .next (acted f.number cells g.cursor)) ∧
    ∀ head : Field, fs.head? = some head →
      ∃ (cells : Cells) (entered : List Field) (chains : Vector (Option Chain) 4) (current : Option ChainId),
        nulled 0 cells ∧ g.entersTo head.start entered chains current ∧
        exec .clearField s = .next (s.setPage p
          { g with
            cells := cells
            fields := g.fields.map fun h =>
              if fs.any (·.number == h.number) then
                { h with
                  modified := true
                  entry := h.entry.map fun x =>
                    { x with hostMark := none, touched := if h.number = head.number then true else x.touched } }
              else h
            cursor := head.start
            chains := chains
            current := current
            notice := none })

/-- R64, R66, R68, R44, R7: INSERT, RESET, ATTN, an unknown key and PARK on the active page. R92: ATTN is taken at once during
inhibit too, and the keys typed ahead stay. -/
def Obligations.ControlKeys : Prop :=
  ∀ (s : State) (p : PageNum),
    (s.active = some p → s.inhibited = false → s.keys.frame = .absent → (s.page p).hold ≠ none →
      exec .reset s = .next (s.setPage p { s.page p with hold := none, notice := none })) ∧
    (s.active = some p → (s.page p).hold = none → s.keys.frame = .absent →
      (s.reports.queue.length < 8 → exec .attn s = .next
        { s.setPage p { s.page p with notice := none } with
          reports := { s.reports with queue := s.reports.queue ++ [.attention p .key (s.page p).serial] } }) ∧
      (8 ≤ s.reports.queue.length → exec .attn s = .next (s.setPage p
        { s.page p with notice := none, attention := { (s.page p).attention with key := true } }))) ∧
    (s.editing p →
      exec .reset s = .next (s.setPage p { s.page p with notice := none }) ∧
      exec .insert s = .next (s.setPage p { s.page p with insert := !(s.page p).insert, notice := none }) ∧
      (∀ b : Byte, knownInputCode b = false →
        exec (.unknownKey b) s = .next (s.setPage p { s.page p with notice := some .eKey })) ∧
      (s.ready = [] → exec .park s = .next (s.setPage p { s.page p with notice := some .noNext })) ∧
      ∀ (q : PageNum) (rest : List PageNum), s.ready = q :: rest → q ≠ p → s.scan.buffer = none →
        exec .park s = .next
          { (s.setPage p { s.page p with state := .ready, notice := none }).setPage q
              { s.page q with state := .active } with
            ready := rest ++ [p]
            active := some q
            noPage := none
            keys := { s.keys with queue := [] }
            scan := { s.scan with confirm := none, window := none } })

/-- R16, R19, R69, R70, R77, R81 to R86, R147: ENTER and F1 to F12. A touched field under the cursor is checked first: a
failing check holds the page at it, and after a passing one the key goes on as on the page the check leaves. With no touched
field under the cursor the walk tests each ENTRY field that is mandatory or modified, in positional order: when all pass,
their check-error marks are cleared and AMOUNT fields normalised, and with a free report entry the send is accepted, its
report lists the modified fields, and the ready queue's head is promoted; with none it is refused E-LINK. At the first field
that fails, with E-MAND or its check's code, the page enters error hold with the cursor there. -/
def Obligations.SendKeysSendThePage : Prop :=
  ∀ (s : State) (p : PageNum) (c : Instr) (id : Nat), s.editing p → (s.page p).FieldLaw → (s.page p).cells.wf →
    (c = .enter ∧ id = 0 ∨ ∃ k : Fin 12, c = .functionKey k ∧ id = k.val + 1) →
    let g := s.page p
    let codes (f : Field) : List Byte := (List.range f.length).map fun i => g.cells.read (f.start + i)
    let blank (f : Field) : Prop := ∀ b ∈ codes f, b = 0x00#8 ∨ b = 0x20#8
    let marked (fields : List Field) (n : Nat) (change : EntryItems → EntryItems) : List Field :=
      fields.map fun h => if h.number = n then { h with entry := h.entry.map change } else h
    (∀ (f : Field) (e : EntryItems), g.entryAt g.cursor = some f → f.entry = some e → e.touched = true →
      (∀ code : ErrorCode, exitCheck e f.length (codes f) = .fail code → exec c s = .next
        { s.setPage p (Page.held { g with
            fields := marked g.fields f.number fun x => { x with checkError := some code } } code) with
          keys := { s.keys with queue := [] } }) ∧
      ∀ out : List Byte, exitCheck e f.length (codes f) = .pass out → ∃ cells : Cells, cells.wf ∧
        (∀ a, cells.read a = if e.cls = .amount ∧ f.start ≤ a ∧ a < f.start + f.length then out.getD (a - f.start) 0x00#8
          else g.cells.read a) ∧
        exec c s = exec c (s.setPage p { g with
          cells := cells
          fields := marked g.fields f.number fun x => { x with touched := false, checkError := none }
          notice := none })) ∧
    (g.cursorUntouched →
      let passes (f : Field) : Prop := ∀ e, f.entry = some e →
        (e.mandatory = true → ¬blank f) ∧
          (f.modified = true → ∃ out, exitCheck e f.length (codes f) = .pass out)
      let standing (done : List Field) (cells : Cells) : Prop := cells.wf ∧ ∀ a,
        (∀ f ∈ done, ∀ e out, f.entry = some e → e.cls = .amount → f.modified = true → f.start ≤ a →
          a < f.start + f.length → exitCheck e f.length (codes f) = .pass out →
          cells.read a = out.getD (a - f.start) 0x00#8) ∧
        ((∀ f ∈ done, f.modified = true → f.entry.any (·.cls = .amount) = true → a < f.start ∨ f.start + f.length ≤ a) →
          cells.read a = g.cells.read a)
      let cleared (done : List Field) : List Field := g.fields.map fun h =>
        if done.any (·.number == h.number) && h.entry.any (fun x => h.modified || x.mandatory) then
          { h with entry := h.entry.map fun x => { x with checkError := none } }
        else h
      ((∀ f ∈ g.fields, passes f) → ∃ cells : Cells, standing g.fields cells ∧
        let walked : Page := { g with cells := cells, fields := cleared g.fields }
        (8 ≤ s.reports.queue.length → exec c s = .next (s.setPage p { walked with notice := some .eLink })) ∧
        (s.reports.queue.length < 8 → ∀ fields : List SentField,
          (g.fields.filter fun f => f.modified).Forall₂ (fun f x => x.number = f.number ∧ x.start = f.start ∧
            x.length ≤ f.length ∧ (∀ a, f.start + x.length ≤ a → a < f.start + f.length → cells.read a = 0x00#8) ∧
            (x.length ≠ 0 → cells.read (f.start + x.length - 1) ≠ 0x00#8)) fields →
          let report : Report := .entry
            { page := p, serial := g.serial + 1, sendKey := id, row := g.cursor / 80, column := g.cursor % 80,
              fields := fields }
          let sent : State :=
            { s.setPage p { walked with
                state := .sending, serial := g.serial + 1, overdue := false, unsent := false, notice := none } with
              active := none
              reports := { s.reports with queue := s.reports.queue ++ [report] }
              keys := { s.keys with queue := [] }
              scan := { s.scan with confirm := none, window := none } }
          (s.ready = [] → exec c s = .next sent) ∧
          ∀ (q : PageNum) (rest : List PageNum), s.ready = q :: rest → q ≠ p → s.scan.buffer = none →
            exec c s = .next
              { sent.setPage q { s.page q with state := .active } with
                ready := rest, active := some q, noPage := none })) ∧
      ∀ (before after : List Field) (f : Field) (e : EntryItems) (code : ErrorCode), g.fields = before ++ f :: after →
        (∀ h ∈ before, passes h) → f.entry = some e →
        (e.mandatory = true ∧ blank f ∧ code = .eMand ∨
          (e.mandatory = true → ¬blank f) ∧ f.modified = true ∧
            exitCheck e f.length (codes f) = .fail code) →
        ∃ cells : Cells, standing before cells ∧
          let failed : Page := { g with
            cells := cells
            fields := marked (cleared before) f.number fun x => { x with checkError := some code, touched := true } }
          let at_ : Page :=
            if f.start ≤ g.cursor ∧ g.cursor < f.start + f.length then failed
            else
              match g.memberOf f.number with
              | none => { failed with cursor := f.start }
              | some (d, i) => { failed with
                  cursor := f.start
                  chains := g.chains.set d.val (g.chains[d.val].map fun ch => { ch with index := i })
                  current := some d }
          exec c s = .next { s.setPage p (at_.held code) with keys := { s.keys with queue := [] } })

/-- R46, R66, R92, R93: a key with no page ACTIVE, in error hold, and during inhibit. -/
def Obligations.KeysHeldAndRefused : Prop :=
  ∀ (s : State) (c : Instr) (b : Byte), keyCode c = some b → b ≠ 0x1D#8 → s.keys.frame = .absent →
    (s.active = none → exec c s = .next
      (if b = 0x8D#8 then s
      else if knownInputCode b = false then { s with noPage := some .eKey }
      else { s with noPage := some .eNoForm })) ∧
    ∀ p : PageNum, s.active = some p →
      ((s.page p).hold ≠ none → b ≠ 0x8D#8 → exec c s = .next s) ∧
      (s.inhibited = true → b = 0x8D#8 → exec c s = .next
        { s.setPage p { s.page p with hold := none, notice := none } with keys := { s.keys with queue := [] } }) ∧
      ((s.page p).hold = none → s.inhibited = true → b ≠ 0x8D#8 → b ≠ 0x8F#8 → exec c s = .next
        (if s.keys.typeAhead = false then s.setPage p { s.page p with notice := some .wait }
        else if s.keys.queue.length < 16 then { s with keys := { s.keys with queue := s.keys.queue ++ [b] } }
        else s.setPage p { s.page p with notice := some .eFull }))

/-! ## Scans -/

/-- R101, R103, R105: a frame of length 0 or above 64 is refused; one that comes with no page ACTIVE, in error hold or while
another is held is answered without effect; during inhibit the first is held, with no answer yet. A frame that has no
target, with neither a confirming read nor a current chain and the cursor in no field that admits scans, is refused. R88,
R89, R100: the frame's bytes come one after another, and a code that arrives while a frame is in progress is the frame's,
whatever key it would name; the frame is judged with its last byte as it would be all at once. -/
def Obligations.ScanFramesAreJudged : Prop :=
  ∀ s : State,
    (∀ (length : Byte) (characters : List Byte), s.frameFree → characters.length = length.toNat →
      let c := Instr.scanFrame length characters
      (length.toNat = 0 ∨ 64 < length.toNat →
        (s.active = none → exec c s = .next (s.scanAnswered .nakReject)) ∧
        ∀ p : PageNum, s.active = some p →
          ((s.page p).hold ≠ none → exec c s = .next (s.scanAnswered .nakReject)) ∧
          ((s.page p).hold = none → exec c s = .next
            ((s.scanAnswered .nakReject).setPage p { s.page p with notice := some .sReject }))) ∧
      (1 ≤ length.toNat → length.toNat ≤ 64 →
        (s.active = none → exec c s = .next (s.scanAnswered .nakReject)) ∧
        ∀ p : PageNum, s.active = some p →
          ((s.page p).hold ≠ none → exec c s = .next (s.scanAnswered .nakBusy)) ∧
          ((s.page p).hold = none → s.inhibited = true → s.scan.buffer ≠ none →
            exec c s = .next (s.scanAnswered .nakBusy)) ∧
          ((s.page p).hold = none → s.inhibited = true → s.scan.buffer = none →
            exec c s = .next { s with scan := { s.scan with buffer := some characters } }) ∧
          ((s.page p).hold = none → s.inhibited = false → s.scan.confirm = none → (s.page p).current = none →
            (∀ f e, (s.page p).entryAt (s.page p).cursor = some f → f.entry = some e → e.source = .key) →
            exec c s = .next ((s.scanAnswered .nakReject).setPage p { s.page p with notice := some .sReject })))) ∧
    ∀ (k : Instr) (b : Byte), keyCode k = some b →
      (s.keys.frame = .absent → b = 0x1D#8 →
        exec k s = .next { s with keys := { s.keys with frame := .lengthAwaited } }) ∧
      (s.keys.frame = .lengthAwaited → b = 0x00#8 →
        exec k s = exec (.scanFrame 0x00#8 []) { s with keys := { s.keys with frame := .absent } }) ∧
      (s.keys.frame = .lengthAwaited → b ≠ 0x00#8 → exec k s = .next { s with
        keys := { s.keys with frame := .counting b.toNat }
        scan := { s.scan with receiving := some { length := b, characters := [] } } }) ∧
      (∀ (n : Nat) (r : Receiving), s.keys.frame = .counting n → s.scan.receiving = some r → 2 ≤ n →
        let kept := if r.length.toNat ≤ 64 then r.characters ++ [b] else r.characters
        exec k s = .next { s with
          keys := { s.keys with frame := .counting (n - 1) }
          scan := { s.scan with receiving := some { r with characters := kept } } }) ∧
      ∀ (r : Receiving) (characters : List Byte), s.keys.frame = .counting 1 → s.scan.receiving = some r →
        characters.length = r.length.toNat → (r.length.toNat ≤ 64 → characters = r.characters ++ [b]) →
        exec k s = exec (.scanFrame r.length characters) { s with
          keys := { s.keys with frame := .absent }, scan := { s.scan with receiving := none } }

/-- R105 to R111, R119: a read goes to the member at the current chain's index, or, without a current chain, to the field at
the cursor that admits scans. Its characters are filtered and folded as the class asks, nulls behind them; when they do not
fit or fail the candidate check the read is refused, and else, in a field without double-read, they are deposited: the field
takes them, its chain steps and takes its action, and the follow move is made, each as Safety's DepositTo has it. -/
def Obligations.ScanDepositsIntoTheField : Prop :=
  ∀ (s : State) (p : PageNum) (f : Field) (e : EntryItems) (characters : List Byte), s.frameFree → s.editing p →
    (s.page p).FieldLaw → (s.page p).ChainLaw → (s.page p).cells.wf → s.scan.confirm = none →
    f ∈ (s.page p).fields → f.entry = some e → e.source ≠ .key → (s.page p).ReadGoesTo f →
    1 ≤ characters.length → characters.length ≤ 64 →
    let c := Instr.scanFrame (byteOf characters.length) characters
    ((∀ folded out : List Byte, ¬f.Fits e characters folded out) →
      exec c s = .next ((s.scanAnswered .nakReject).setPage p { s.page p with notice := some .sReject })) ∧
    ∀ folded out : List Byte, e.doubleRead = false → f.Fits e characters folded out →
      ∃ t, exec c s = .next t ∧ s.DepositTo p f out t

/-- R105, R109, R112, R113, R115: the first read into a double-read field of any class, at the cursor or in the current chain,
that passes its candidate check is held as received and answered ACK, with S-AGAIN and the confirm window on its timer; no
cell, mark, chain or cursor changes. An identical read is deposited into the record's field, wherever the cursor and the
current chain now stand, and steps the chain of which that field is a member. Another read drops the record and is taken as
with no record: a first read, a deposit or a refusal. -/
def Obligations.ConfirmReadNeedsTwoReads : Prop :=
  ∀ (s : State) (p : PageNum) (characters : List Byte), s.frameFree → s.editing p → (s.page p).FieldLaw →
    (s.page p).ChainLaw → (s.page p).cells.wf → 1 ≤ characters.length → characters.length ≤ 64 →
    let c := Instr.scanFrame (byteOf characters.length) characters
    let dropped : State := { s with scan := { s.scan with confirm := none, window := none } }
    (∀ r : ConfirmRecord, s.scan.confirm = some r → r.characters ≠ characters → exec c s = exec c dropped) ∧
    ∀ (f : Field) (e : EntryItems) (folded out : List Byte), f ∈ (s.page p).fields → f.entry = some e →
      f.Fits e characters folded out →
      (s.scan.confirm = none → (s.page p).ReadGoesTo f → e.source ≠ .key → e.doubleRead = true →
        exec c s = .next ((State.scanAnswered
          { s with scan := { s.scan with
            confirm := some { characters := characters, page := p, field := f.number }
            window := some (s.interp.confirmWindow * 100) } } .ack).setPage p
          { s.page p with notice := some .sAgain })) ∧
      (s.scan.confirm = some { characters := characters, page := p, field := f.number } →
        ∃ t, exec c s = .next t ∧ dropped.DepositTo p f out t)

/-- R184: the scanner decoder takes the answer bytes first in first out; with none offered it takes nothing (log entry 10). -/
def Obligations.ScanAnswersAreTakenInOrder : Prop :=
  ∀ s : State,
    (s.scan.answers = [] → exec .scanAnswerByteTaken s = .next { s with outputs := { s.outputs with input := none } }) ∧
    ∀ (b : Byte) (rest : List Byte), s.scan.answers = b :: rest → exec .scanAnswerByteTaken s = .next
      { s with scan := { s.scan with answers := rest }, outputs := { s.outputs with input := some b } }

/-! ## The display -/

/-- R176 to R181: a request is answered from the state as it stands and changes no block's state. -/
def Obligations.DisplayAnswers : Prop :=
  ∀ (s : State) (row : Byte),
    exec .cursorRequest s = .next { s with outputs := { s.outputs with display := some (.cursor
      (s.active.map fun p =>
        { row := (s.page p).cursor / 80, column := (s.page p).cursor % 80,
          shape := if (s.page p).insert then .bar else .block })) } } ∧
    ∃ cells : List Shown, cells.length = 80 ∧
      exec (.rowRequest row) s = .next { s with outputs := { s.outputs with display := some (.row cells) } } ∧
      (24 < row.toNat ∨ s.active = none ∧ row.toNat < 24 → cells = List.replicate 80
        { character := 0x20#8, underline := false, bright := false, blink := false, reverse := false }) ∧
      (∀ p : PageNum, s.active = some p → row.toNat < 24 → ∀ column < 80,
        let a := row.toNat * 80 + column
        let code := if (s.page p).cells.read a = 0x00#8 then 0x20#8 else (s.page p).cells.read a
        (∀ f, (s.page p).fieldAt a = some f → f.intensity ≠ .hidden → cells[column]? = some
          { character := code, underline := f.entry.isSome, bright := f.intensity == .bright, blink := f.blink,
            reverse := f.entry.any fun e => e.checkError.isSome || e.hostMark.isSome }) ∧
        (∀ f, (s.page p).fieldAt a = some f → f.intensity = .hidden → cells[column]? = some
          { character := 0x20#8, underline := false, bright := false, blink := false, reverse := false }) ∧
        ((s.page p).fieldAt a = none → cells[column]? = some
          { character := code, underline := false, bright := false, blink := false, reverse := false })) ∧
      (row.toNat = 24 →
        let filled (width : Nat) (text : List Byte) : List Byte := text ++ List.replicate (width - text.length) 0x20#8
        (∀ x ∈ cells, x.underline = false ∧ x.bright = false ∧ x.blink = false ∧ x.reverse = false) ∧
        (s.active = none →
          let notice : String := match s.noPage with | none => "" | some .eNoForm => "E-NOFORM" | some .eKey => "E-KEY"
          cells.map (·.character) = ascii "NO FORM   P- Q0 " ++ filled 8 (ascii notice) ++ List.replicate 56 0x20#8) ∧
        ∀ p : PageNum, s.active = some p → s.ready.length < 10 → (s.page p).message.length ≤ 56 →
          let word : String :=
            if s.inhibited then "WAIT" else if (s.page p).hold ≠ none then "ERROR"
            else if s.scan.confirm ≠ none then "SCAN" else if (s.page p).insert then "INSERT" else "READY"
          let notice : List Byte := match (s.page p).notice with
            | some (.error .eProt) => ascii "E-PROT"
            | some (.error .eSrc) => ascii "E-SRC"
            | some (.error .eClass) => ascii "E-CLASS"
            | some (.error .eOver) => ascii "E-OVER"
            | some (.error .eForm) => ascii "E-FORM"
            | some (.error .eScale) => ascii "E-SCALE"
            | some (.error .eRange) => ascii "E-RANGE"
            | some (.error .eCheck) => ascii "E-CHECK"
            | some (.error .eFill) => ascii "E-FILL"
            | some (.error .eMand) => ascii "E-MAND"
            | some .sAgain => ascii "S-AGAIN"
            | some .sRescan => ascii "S-RESCAN"
            | some .sReject => ascii "S-REJECT"
            | some .eLink => ascii "E-LINK"
            | some .eFull => ascii "E-FULL"
            | some .eKey => ascii "E-KEY"
            | some .noNext => ascii "NO NEXT"
            | some .wait => ascii "WAIT"
            | none => match (((s.page p).entryAt (s.page p).cursor).bind (·.entry)).bind (·.hostMark) with
              | some n => ascii "H-" ++ [byteOf (0x30 + n / 10 % 10), byteOf (0x30 + n % 10)]
              | none => []
          let message := if (s.page p).overdue then ascii "NO REPLY" else if (s.page p).unsent then ascii "UNSENT"
            else (s.page p).message
          cells.map (·.character) = filled 10 (ascii word) ++ ascii "P" ++ [byteOf (0x30 + p.val)] ++ ascii " Q" ++
            [byteOf (0x30 + s.ready.length)] ++ ascii " " ++ filled 8 notice ++ filled 56 message)

/-! ## Expiries and attempts -/

/-- R22, R23, R114: the expiry of a reply timer that runs returns its page to the operator, overdue; the expiry of the
confirm window drops the first read, with S-RESCAN outside error hold; each is taken whatever time the timer still held (log
entry 7). An expiry of a timer that does not run changes nothing (log entry 8). R20, R21: with no command waiting, an expiry
that stands at zero is taken, a free choice among several, and with none at zero one ms passes for every running timer, none
for a suspended one (the model's choice, log entry 6). -/
def Obligations.TimerExpiries : Prop :=
  ∀ (s : State) (p : PageNum),
    (((s.page p).state ≠ .awaiting ∨ (s.page p).inFlight = true ∨ (s.page p).timer = .notRunning) →
      exec (.replyTimerExpiry p) s = .next s) ∧
    (∀ ms : Nat, (s.page p).state = .awaiting → (s.page p).inFlight = false → (s.page p).timer = .remaining ms →
      (∀ a : PageNum, s.active = some a → exec (.replyTimerExpiry p) s = .next
        { s.setPage p { s.page p with state := .ready, timer := .absent, overdue := true } with
          ready := p :: s.ready }) ∧
      (s.active = none → s.ready = [] → s.scan.buffer = none → exec (.replyTimerExpiry p) s = .next
        { s.setPage p { s.page p with state := .active, timer := .absent, overdue := true } with
          active := some p
          noPage := none
          keys := { s.keys with queue := [] }
          scan := { s.scan with confirm := none, window := none } })) ∧
    (s.scan.confirm = none → exec .confirmWindowExpiry s = .next s) ∧
    (∀ r : ConfirmRecord, s.scan.confirm = some r →
      let dropped : State := { s with scan := { s.scan with confirm := none, window := none } }
      ((s.page r.page).hold = none → exec .confirmWindowExpiry s = .next
        (dropped.setPage r.page { s.page r.page with notice := some .sRescan })) ∧
      ((s.page r.page).hold ≠ none → exec .confirmWindowExpiry s = .next dropped)) ∧
    (s.pending = [] →
      let due (c : Instr) : Prop :=
        (∃ q : PageNum, c = .replyTimerExpiry q ∧ (s.page q).state = .awaiting ∧ (s.page q).inFlight = false ∧
          (s.page q).timer = .remaining 0) ∨
        c = .confirmWindowExpiry ∧ s.scan.window = some 0 ∨
        c = .gatheringWindowExpiry ∧ s.store.unit.window = some 0
      ((∀ c, ¬due c) → ∃ t, step s = .next t ∧
        t = { s with
          pages := t.pages
          scan := { s.scan with window := s.scan.window.map (· - 1) }
          store := { s.store with unit := { s.store.unit with window := s.store.unit.window.map (· - 1) } } } ∧
        (∀ (q : PageNum) (ms : Nat), (s.page q).timer = .remaining ms → (s.page q).state = .awaiting →
          (s.page q).inFlight = false → t.page q = { s.page q with timer := .remaining (ms - 1) }) ∧
        ∀ q : PageNum, ((s.page q).inFlight = true ∨ (s.page q).state ≠ .awaiting ∨ (s.page q).timer = .absent ∨
          (s.page q).timer = .notRunning) → t.page q = s.page q) ∧
      (∀ c, due c → (∀ d, due d → d = c) → step s = exec c s) ∧
      ∀ c d, due c → due d → c ≠ d → ∃ x, due x ∧ step s = exec x { s with choices := s.choices + 1 })

/-- R169, R170, R172, R154: the gathering window's expiry, whatever time the window held (log entry 7), starts the
lowest-numbered QUEUED slot; a failing attempt is tried again until the fourth gives the slot up, its content, used bytes
and label as they were (log entry 12); a passing one blanks the slot; then the next slot starts, or the run ends and its
result is queued, or merged into the pending erase notice. While PAUSING, an attempt that ends pauses the unit, or ends the
run. -/
def Obligations.EraseUnitEvents : Prop :=
  ∀ (s : State) (n : SlotNum),
    let unit := s.store.unit
    let queuedFirst (m : SlotNum) : Prop := (∃ k, (s.slot m).state = .queued k) ∧ m ≠ n ∧
      ∀ j : SlotNum, j < m → j ≠ n → ∀ k, (s.slot j).state ≠ .queued k
    let noneQueued : Prop := ∀ j : SlotNum, j ≠ n → ∀ k, (s.slot j).state ≠ .queued k
    let blanked (s : State) : State := s.updSlot n fun _ =>
      { state := .blank, content := [], used := 0, label := List.replicate 8 0x20#8 }
    let failed (s : State) : State := s.updSlot n fun x => { x with state := .failed }
    let started (s : State) (m : SlotNum) : State := s.updSlot m fun x => { x with state := .erasing }
    let passed := unit.result ++ [(n, EraseOutcome.blank)]
    let given := unit.result ++ [(n, EraseOutcome.failed)]
    let ended (s : State) (attempts : Nat) (result : List (SlotNum × EraseOutcome)) : State := { s with
      store.unit := { unit with state := .idle, batch := [], work := none, attempts := attempts, result := [] }
      reports :=
        if s.reports.queue.length < 8 then { s.reports with queue := s.reports.queue ++ [.eraseDone result] }
        else { s.reports with notice := some (mergedPairs (s.reports.notice.getD []) result) } }
    (unit.state = .gathering → (∃ k, (s.slot n).state = .queued k) →
      (∀ j : SlotNum, j < n → ∀ k, (s.slot j).state ≠ .queued k) →
      exec .gatheringWindowExpiry s = .next { started s n with
        store.unit := { unit with state := .erasing, window := none, work := some n, attempts := 0 } }) ∧
    (unit.work = some n → unit.state = .erasing →
      (unit.attempts < 3 → exec (.attemptEnd .fail) s = .next { s with
        store.unit := { unit with attempts := unit.attempts + 1 } }) ∧
      (∀ m : SlotNum, queuedFirst m → exec (.attemptEnd .pass) s = .next { started (blanked s) m with
        store.unit := { unit with work := some m, attempts := 0, result := passed } }) ∧
      (∀ m : SlotNum, queuedFirst m → unit.attempts = 3 → exec (.attemptEnd .fail) s = .next { started (failed s) m with
        store.unit := { unit with work := some m, attempts := 0, result := given } }) ∧
      (noneQueued → (passed.map fun q => q.1).Nodup →
        exec (.attemptEnd .pass) s = .next (ended (blanked s) unit.attempts passed) ∧
        (unit.attempts = 3 → exec (.attemptEnd .fail) s = .next (ended (failed s) 4 given)))) ∧
    (unit.work = some n → unit.state = .pausing → (s.slot n).state = .erasing →
      (exec (.attemptStopped .stopped) s = .next { s.updSlot n (fun x => { x with state := .held }) with
        store.unit := { unit with state := .paused } }) ∧
      (unit.attempts < 3 → exec (.attemptStopped .fail) s = .next
        { s.updSlot n (fun x => { x with state := .held }) with
          store.unit := { unit with state := .paused, attempts := unit.attempts + 1 } }) ∧
      (∀ m : SlotNum, queuedFirst m →
        exec (.attemptStopped .pass) s = .next { blanked s with
          store.unit := { unit with state := .paused, work := none, result := passed } } ∧
        (unit.attempts = 3 → exec (.attemptStopped .fail) s = .next { failed s with
          store.unit := { unit with state := .paused, work := none, attempts := 4, result := given } })) ∧
      (noneQueued → (passed.map fun q => q.1).Nodup →
        exec (.attemptStopped .pass) s = .next (ended (blanked s) unit.attempts passed) ∧
        (unit.attempts = 3 → exec (.attemptStopped .fail) s = .next (ended (failed s) 4 given))))

/-! ## Checks -/

/-- R78 to R80: which check character the two check-digit tests accept behind a run of data digits. -/
def Obligations.CheckDigitTests : Prop :=
  ∀ (data : List Byte) (k : Byte), data ≠ [] → (∀ b ∈ data, 0x30 ≤ b.toNat ∧ b.toNat ≤ 0x39) → k ≠ 0x00#8 →
    k ≠ 0x20#8 →
    let digit (i : Nat) : Nat := (data.getD (data.length - 1 - i) 0x30#8).toNat - 0x30
    let sum10 := ((List.range data.length).map fun i => digit i * if i % 2 = 0 then 3 else 1).sum
    let sum11 := ((List.range data.length).map fun i => digit i * (i % 6 + 2)).sum
    let numeral := 0x30 ≤ k.toNat ∧ k.toNat ≤ 0x39
    (checkDigitHolds .m10 .digits (data ++ [k]) = true ↔ numeral ∧ (sum10 + (k.toNat - 0x30)) % 10 = 0) ∧
    (checkDigitHolds .m11 .digits (data ++ [k]) = true ↔ numeral ∧ (sum11 + (k.toNat - 0x30)) % 11 = 0) ∧
    (checkDigitHolds .m11 .code (data ++ [k]) = true ↔
      numeral ∧ (sum11 + (k.toNat - 0x30)) % 11 = 0 ∨ k = 0x58#8 ∧ (sum11 + 10) % 11 = 0) ∧
    checkDigitHolds .m10 .digits [k] = false ∧ checkDigitHolds .m11 .code [k] = false

/-- R71: "A normalised amount normalises to itself"; its cells fill the field. -/
def Obligations.NormalisedAmountStands : Prop :=
  ∀ (e : EntryItems) (length : Nat) (cells out : List Byte), e.cls = .amount → e.check = .noCheck →
    exitCheck e length cells = .pass out →
    exitCheck e length out = .pass out ∧ (isEmptyRun cells = false → out.length = length ∧ 0x00#8 ∉ out)
end

