-- ==== Sys2Proof/Laws/Cells.lean ====
section
/-! SUPPORT. The laws of page cells: a read after a write, and that every operation keeps the canonical form. -/

namespace Sys2Proof.Machine

/-- Every listed position is above a. -/
def Cells.above (m : Cells) (a : Nat) : Prop := ∀ c ∈ m, a < c.1

theorem Cells.wf_nil : Cells.wf [] := by simp [Cells.wf]

theorem Cells.wf_cons {c : Host.Cell} {m : Cells} :
    Cells.wf (c :: m) ↔ Cells.above m c.1 ∧ c.1 < 1920 ∧ c.2 ≠ 0x00#8 ∧ Cells.wf m := by
  simp [Cells.wf, Cells.above, List.pairwise_cons]
  constructor
  · rintro ⟨⟨h1, h2⟩, ⟨h3, h4⟩, h5⟩
    exact ⟨h1, h3, h4, h2, h5⟩
  · rintro ⟨h1, h3, h4, h2, h5⟩
    exact ⟨⟨h1, h2⟩, ⟨h3, h4⟩, h5⟩

theorem Cells.read_of_above {m : Cells} {a : Nat} (h : Cells.above m a) : m.read a = 0x00#8 := by
  induction m with
  | nil => rfl
  | cons c m ih =>
    have h1 : a < c.1 := h c (by simp)
    have h2 : Cells.above m a := fun d hd => h d (by simp [hd])
    simp [Cells.read, Nat.ne_of_gt h1, ih h2]

theorem Cells.above_put {m : Cells} {a b : Nat} {v : Byte} (h : Cells.above m b) (hab : b < a) :
    Cells.above (m.put a v) b := by
  induction m with
  | nil => simp only [Cells.put]; split <;> simp [Cells.above, hab]
  | cons c m ih =>
    have hc : b < c.1 := h c (by simp)
    have hm : Cells.above m b := fun d hd => h d (by simp [hd])
    obtain ⟨k, w⟩ := c
    simp only [Cells.put]
    split
    · split
      · exact h
      · intro d hd
        simp only [List.mem_cons] at hd
        rcases hd with rfl | rfl | hd
        · exact hab
        · exact hc
        · exact hm d hd
    · split
      · split
        · exact hm
        · intro d hd
          simp only [List.mem_cons] at hd
          rcases hd with rfl | hd
          · exact hab
          · exact hm d hd
      · intro d hd
        simp only [List.mem_cons] at hd
        rcases hd with rfl | hd
        · exact hc
        · exact ih hm d hd

/-- A put keeps the canonical form. -/
theorem Cells.wf_put {m : Cells} (a : Nat) (v : Byte) (h : m.wf) (ha : a < 1920) : (m.put a v).wf := by
  induction m with
  | nil => simp only [Cells.put]; split <;> simp_all [Cells.wf]
  | cons c m ih =>
    obtain ⟨k, w⟩ := c
    obtain ⟨h1, h2, h3, h4⟩ := Cells.wf_cons.1 h
    simp only at h1 h2 h3
    simp only [Cells.put]
    split
    case isTrue hlt =>
      split
      · exact h
      · rename_i hv
        refine Cells.wf_cons.2 ⟨?_, ha, hv, h⟩
        intro d hd
        rcases List.mem_cons.1 hd with rfl | hd
        · exact hlt
        · exact Nat.lt_trans hlt (h1 d hd)
    case isFalse hlt =>
      split
      case isTrue heq =>
        subst heq
        split
        · exact h4
        · rename_i hv
          exact Cells.wf_cons.2 ⟨h1, ha, hv, h4⟩
      case isFalse hne =>
        exact Cells.wf_cons.2 ⟨Cells.above_put h1 (by omega), h2, h3, ih h4⟩

/-- A read after a put. -/
theorem Cells.read_put {m : Cells} (a : Nat) (v : Byte) (h : m.wf) (b : Nat) :
    (m.put a v).read b = if b = a then v else m.read b := by
  induction m with
  | nil =>
    simp only [Cells.put]
    split
    · rename_i hv; subst hv; simp [Cells.read]
    · simp [Cells.read, eq_comm]
  | cons c m ih =>
    obtain ⟨k, w⟩ := c
    obtain ⟨h1, h2, h3, h4⟩ := Cells.wf_cons.1 h
    simp only at h1
    simp only [Cells.put]
    split
    case isTrue hlt =>
      split
      case isTrue hv =>
        subst hv
        split
        · rename_i hb
          subst hb
          have : Cells.above ((k, w) :: m) b := by
            intro d hd
            rcases List.mem_cons.1 hd with rfl | hd
            · exact hlt
            · exact Nat.lt_trans hlt (h1 d hd)
          exact Cells.read_of_above this
        · rfl
      case isFalse hv =>
        by_cases hb : b = a
        · subst hb; simp [Cells.read]
        · simp [Cells.read, hb, Ne.symm hb]
    case isFalse hlt =>
      split
      case isTrue heq =>
        subst heq
        split
        case isTrue hv =>
          subst hv
          by_cases hb : b = a
          · subst hb; simp [Cells.read_of_above h1]
          · simp [Cells.read, hb, Ne.symm hb]
        case isFalse hv =>
          by_cases hb : b = a
          · subst hb; simp [Cells.read]
          · simp [Cells.read, hb, Ne.symm hb]
      case isFalse hne =>
        simp only [Cells.read, ih h4]
        by_cases hb : k = b
        · subst hb; simp [Ne.symm hne]
        · simp [hb]

/-- A write keeps the canonical form. -/
theorem Cells.wf_write {m : Cells} (a : Nat) (v : Byte) (h : m.wf) : (m.write a v).wf := by
  unfold Cells.write
  split
  · exact Cells.wf_put a v h ‹_›
  · exact h

/-- A read after a write of a cell. -/
theorem Cells.read_write {m : Cells} (a : Nat) (v : Byte) (h : m.wf) (ha : a < 1920) (b : Nat) :
    (m.write a v).read b = if b = a then v else m.read b := by
  simp [Cells.write, ha, Cells.read_put a v h b]

/-- A read of another cell than the one written. -/
theorem Cells.read_write_ne {m : Cells} {a b : Nat} (v : Byte) (h : m.wf) (hb : b ≠ a) :
    (m.write a v).read b = m.read b := by
  unfold Cells.write
  split
  · simp [Cells.read_put a v h b, hb]
  · rfl

/-- A run of writes keeps the canonical form. -/
theorem Cells.wf_writeRun {m : Cells} (a : Nat) (bs : List Byte) (h : m.wf) : (m.writeRun a bs).wf := by
  induction bs generalizing m a with
  | nil => exact h
  | cons b bs ih => exact ih _ (Cells.wf_write a b h)

/-- Writes at listed positions keep the canonical form. -/
theorem Cells.wf_writeAll {m : Cells} (writes : List (Nat × Byte)) (h : m.wf) : (m.writeAll writes).wf := by
  unfold Cells.writeAll
  induction writes generalizing m with
  | nil => exact h
  | cons w ws ih => exact ih (Cells.wf_write w.1 w.2 h)

/-- A run of writes leaves every position outside the run. -/
theorem Cells.read_writeRun_outside {m : Cells} (a : Nat) (bs : List Byte) (h : m.wf) (ha : a < 1920) (b : Nat)
    (hb : ∀ i < bs.length, b ≠ (a + i) % 1920) : (m.writeRun a bs).read b = m.read b := by
  induction bs generalizing m a with
  | nil => rfl
  | cons v bs ih =>
    have h0 : b ≠ a := by
      have := hb 0 (by simp)
      rwa [Nat.add_zero, Nat.mod_eq_of_lt ha] at this
    have hn : nextPosition a < 1920 := Nat.mod_lt _ (by decide)
    rw [Cells.writeRun, ih _ (Cells.wf_write a v h) hn, Cells.read_write_ne v h h0]
    intro i hi
    have := hb (i + 1) (by simpa using hi)
    have e : (nextPosition a + i) % 1920 = (a + (i + 1)) % 1920 := by unfold nextPosition; omega
    rw [e]; exact this

/-- A run of at most 1920 writes stores its i-th code in the i-th position from its start, with the wrap of R131. -/
theorem Cells.read_writeRun {m : Cells} (a : Nat) (bs : List Byte) (h : m.wf) (ha : a < 1920)
    (hn : bs.length ≤ 1920) (i : Nat) (hi : i < bs.length) :
    (m.writeRun a bs).read ((a + i) % 1920) = bs[i] := by
  induction bs generalizing m a i with
  | nil => simp at hi
  | cons v bs ih =>
    have hp : nextPosition a < 1920 := Nat.mod_lt _ (by decide)
    simp only [List.length_cons] at hn
    cases i with
    | zero =>
      rw [Cells.writeRun, Cells.read_writeRun_outside _ bs (Cells.wf_write a v h) hp]
      · simp [Nat.mod_eq_of_lt ha, Cells.read_write a v h ha]
      · intro j hj
        unfold nextPosition
        simp only [List.length_cons] at hi
        omega
    | succ i =>
      have e : (a + (i + 1)) % 1920 = (nextPosition a + i) % 1920 := by unfold nextPosition; omega
      rw [e, Cells.writeRun]
      simpa using ih (m := m.write a v) (nextPosition a) (Cells.wf_write a v h) hp (by omega) i (by simpa using hi)

end Sys2Proof.Machine
end

