-- ==== Sys2Proof/Laws/State.lean ====
section
/-! SUPPORT. What each named update of State leaves in each field: one lemma per field, true by unfolding. -/

namespace Sys2Proof.Machine

variable (s : State)

/-! ## setPage -/

@[simp] theorem State.setPage_ready (p : PageNum) (g : Page) : (s.setPage p g).ready = s.ready := rfl
@[simp] theorem State.setPage_active (p : PageNum) (g : Page) : (s.setPage p g).active = s.active := rfl
@[simp] theorem State.setPage_noPage (p : PageNum) (g : Page) : (s.setPage p g).noPage = s.noPage := rfl
@[simp] theorem State.setPage_keys (p : PageNum) (g : Page) : (s.setPage p g).keys = s.keys := rfl
@[simp] theorem State.setPage_scan (p : PageNum) (g : Page) : (s.setPage p g).scan = s.scan := rfl
@[simp] theorem State.setPage_interp (p : PageNum) (g : Page) : (s.setPage p g).interp = s.interp := rfl
@[simp] theorem State.setPage_reports (p : PageNum) (g : Page) : (s.setPage p g).reports = s.reports := rfl
@[simp] theorem State.setPage_store (p : PageNum) (g : Page) : (s.setPage p g).store = s.store := rfl
@[simp] theorem State.setPage_outputs (p : PageNum) (g : Page) : (s.setPage p g).outputs = s.outputs := rfl
@[simp] theorem State.setPage_choices (p : PageNum) (g : Page) : (s.setPage p g).choices = s.choices := rfl
@[simp] theorem State.setPage_pending (p : PageNum) (g : Page) : (s.setPage p g).pending = s.pending := rfl

/-! ## updPage -/

@[simp] theorem State.updPage_ready (p : PageNum) (f : Page → Page) : (s.updPage p f).ready = s.ready := rfl
@[simp] theorem State.updPage_active (p : PageNum) (f : Page → Page) : (s.updPage p f).active = s.active := rfl
@[simp] theorem State.updPage_noPage (p : PageNum) (f : Page → Page) : (s.updPage p f).noPage = s.noPage := rfl
@[simp] theorem State.updPage_keys (p : PageNum) (f : Page → Page) : (s.updPage p f).keys = s.keys := rfl
@[simp] theorem State.updPage_scan (p : PageNum) (f : Page → Page) : (s.updPage p f).scan = s.scan := rfl
@[simp] theorem State.updPage_interp (p : PageNum) (f : Page → Page) : (s.updPage p f).interp = s.interp := rfl
@[simp] theorem State.updPage_reports (p : PageNum) (f : Page → Page) : (s.updPage p f).reports = s.reports := rfl
@[simp] theorem State.updPage_store (p : PageNum) (f : Page → Page) : (s.updPage p f).store = s.store := rfl
@[simp] theorem State.updPage_outputs (p : PageNum) (f : Page → Page) : (s.updPage p f).outputs = s.outputs := rfl
@[simp] theorem State.updPage_choices (p : PageNum) (f : Page → Page) : (s.updPage p f).choices = s.choices := rfl
@[simp] theorem State.updPage_pending (p : PageNum) (f : Page → Page) : (s.updPage p f).pending = s.pending := rfl

/-! ## setNotice -/

@[simp] theorem State.setNotice_ready (p : PageNum) (n : Option Notice) : (s.setNotice p n).ready = s.ready := rfl
@[simp] theorem State.setNotice_active (p : PageNum) (n : Option Notice) : (s.setNotice p n).active = s.active := rfl
@[simp] theorem State.setNotice_noPage (p : PageNum) (n : Option Notice) : (s.setNotice p n).noPage = s.noPage := rfl
@[simp] theorem State.setNotice_keys (p : PageNum) (n : Option Notice) : (s.setNotice p n).keys = s.keys := rfl
@[simp] theorem State.setNotice_scan (p : PageNum) (n : Option Notice) : (s.setNotice p n).scan = s.scan := rfl
@[simp] theorem State.setNotice_interp (p : PageNum) (n : Option Notice) : (s.setNotice p n).interp = s.interp := rfl
@[simp] theorem State.setNotice_reports (p : PageNum) (n : Option Notice) : (s.setNotice p n).reports = s.reports := rfl
@[simp] theorem State.setNotice_store (p : PageNum) (n : Option Notice) : (s.setNotice p n).store = s.store := rfl
@[simp] theorem State.setNotice_outputs (p : PageNum) (n : Option Notice) : (s.setNotice p n).outputs = s.outputs := rfl
@[simp] theorem State.setNotice_choices (p : PageNum) (n : Option Notice) : (s.setNotice p n).choices = s.choices := rfl
@[simp] theorem State.setNotice_pending (p : PageNum) (n : Option Notice) : (s.setNotice p n).pending = s.pending := rfl

/-! ## dropKeys -/

@[simp] theorem State.dropKeys_pages : (s.dropKeys).pages = s.pages := rfl
@[simp] theorem State.dropKeys_ready : (s.dropKeys).ready = s.ready := rfl
@[simp] theorem State.dropKeys_active : (s.dropKeys).active = s.active := rfl
@[simp] theorem State.dropKeys_noPage : (s.dropKeys).noPage = s.noPage := rfl
@[simp] theorem State.dropKeys_keys_typeAhead : (s.dropKeys).keys.typeAhead = s.keys.typeAhead := rfl
@[simp] theorem State.dropKeys_keys_frame : (s.dropKeys).keys.frame = s.keys.frame := rfl
@[simp] theorem State.dropKeys_scan : (s.dropKeys).scan = s.scan := rfl
@[simp] theorem State.dropKeys_interp : (s.dropKeys).interp = s.interp := rfl
@[simp] theorem State.dropKeys_reports : (s.dropKeys).reports = s.reports := rfl
@[simp] theorem State.dropKeys_store : (s.dropKeys).store = s.store := rfl
@[simp] theorem State.dropKeys_outputs : (s.dropKeys).outputs = s.outputs := rfl
@[simp] theorem State.dropKeys_choices : (s.dropKeys).choices = s.choices := rfl
@[simp] theorem State.dropKeys_pending : (s.dropKeys).pending = s.pending := rfl

/-! ## dropConfirm -/

@[simp] theorem State.dropConfirm_pages : (s.dropConfirm).pages = s.pages := rfl
@[simp] theorem State.dropConfirm_ready : (s.dropConfirm).ready = s.ready := rfl
@[simp] theorem State.dropConfirm_active : (s.dropConfirm).active = s.active := rfl
@[simp] theorem State.dropConfirm_noPage : (s.dropConfirm).noPage = s.noPage := rfl
@[simp] theorem State.dropConfirm_keys : (s.dropConfirm).keys = s.keys := rfl
@[simp] theorem State.dropConfirm_scan_buffer : (s.dropConfirm).scan.buffer = s.scan.buffer := rfl
@[simp] theorem State.dropConfirm_scan_receiving : (s.dropConfirm).scan.receiving = s.scan.receiving := rfl
@[simp] theorem State.dropConfirm_scan_answers : (s.dropConfirm).scan.answers = s.scan.answers := rfl
@[simp] theorem State.dropConfirm_interp : (s.dropConfirm).interp = s.interp := rfl
@[simp] theorem State.dropConfirm_reports : (s.dropConfirm).reports = s.reports := rfl
@[simp] theorem State.dropConfirm_store : (s.dropConfirm).store = s.store := rfl
@[simp] theorem State.dropConfirm_outputs : (s.dropConfirm).outputs = s.outputs := rfl
@[simp] theorem State.dropConfirm_choices : (s.dropConfirm).choices = s.choices := rfl
@[simp] theorem State.dropConfirm_pending : (s.dropConfirm).pending = s.pending := rfl

/-! ## answerScan -/

@[simp] theorem State.answerScan_pages (a : ScanAnswer) : (s.answerScan a).pages = s.pages := rfl
@[simp] theorem State.answerScan_ready (a : ScanAnswer) : (s.answerScan a).ready = s.ready := rfl
@[simp] theorem State.answerScan_active (a : ScanAnswer) : (s.answerScan a).active = s.active := rfl
@[simp] theorem State.answerScan_noPage (a : ScanAnswer) : (s.answerScan a).noPage = s.noPage := rfl
@[simp] theorem State.answerScan_keys (a : ScanAnswer) : (s.answerScan a).keys = s.keys := rfl
@[simp] theorem State.answerScan_scan_buffer (a : ScanAnswer) : (s.answerScan a).scan.buffer = s.scan.buffer := rfl
@[simp] theorem State.answerScan_scan_confirm (a : ScanAnswer) : (s.answerScan a).scan.confirm = s.scan.confirm := rfl
@[simp] theorem State.answerScan_scan_window (a : ScanAnswer) : (s.answerScan a).scan.window = s.scan.window := rfl
@[simp] theorem State.answerScan_scan_receiving (a : ScanAnswer) : (s.answerScan a).scan.receiving = s.scan.receiving := rfl
@[simp] theorem State.answerScan_interp (a : ScanAnswer) : (s.answerScan a).interp = s.interp := rfl
@[simp] theorem State.answerScan_reports (a : ScanAnswer) : (s.answerScan a).reports = s.reports := rfl
@[simp] theorem State.answerScan_store (a : ScanAnswer) : (s.answerScan a).store = s.store := rfl
@[simp] theorem State.answerScan_outputs (a : ScanAnswer) : (s.answerScan a).outputs = s.outputs := rfl
@[simp] theorem State.answerScan_choices (a : ScanAnswer) : (s.answerScan a).choices = s.choices := rfl
@[simp] theorem State.answerScan_pending (a : ScanAnswer) : (s.answerScan a).pending = s.pending := rfl

/-! ## queueReport -/

@[simp] theorem State.queueReport_pages (r : Report) : (s.queueReport r).pages = s.pages := rfl
@[simp] theorem State.queueReport_ready (r : Report) : (s.queueReport r).ready = s.ready := rfl
@[simp] theorem State.queueReport_active (r : Report) : (s.queueReport r).active = s.active := rfl
@[simp] theorem State.queueReport_noPage (r : Report) : (s.queueReport r).noPage = s.noPage := rfl
@[simp] theorem State.queueReport_keys (r : Report) : (s.queueReport r).keys = s.keys := rfl
@[simp] theorem State.queueReport_scan (r : Report) : (s.queueReport r).scan = s.scan := rfl
@[simp] theorem State.queueReport_interp (r : Report) : (s.queueReport r).interp = s.interp := rfl
@[simp] theorem State.queueReport_reports_taken (r : Report) : (s.queueReport r).reports.taken = s.reports.taken := rfl
@[simp] theorem State.queueReport_reports_padding (r : Report) : (s.queueReport r).reports.padding = s.reports.padding := rfl
@[simp] theorem State.queueReport_reports_notice (r : Report) : (s.queueReport r).reports.notice = s.reports.notice := rfl
@[simp] theorem State.queueReport_store (r : Report) : (s.queueReport r).store = s.store := rfl
@[simp] theorem State.queueReport_outputs (r : Report) : (s.queueReport r).outputs = s.outputs := rfl
@[simp] theorem State.queueReport_choices (r : Report) : (s.queueReport r).choices = s.choices := rfl
@[simp] theorem State.queueReport_pending (r : Report) : (s.queueReport r).pending = s.pending := rfl

/-! ## updSlot -/

@[simp] theorem State.updSlot_pages (n : SlotNum) (f : Slot → Slot) : (s.updSlot n f).pages = s.pages := rfl
@[simp] theorem State.updSlot_ready (n : SlotNum) (f : Slot → Slot) : (s.updSlot n f).ready = s.ready := rfl
@[simp] theorem State.updSlot_active (n : SlotNum) (f : Slot → Slot) : (s.updSlot n f).active = s.active := rfl
@[simp] theorem State.updSlot_noPage (n : SlotNum) (f : Slot → Slot) : (s.updSlot n f).noPage = s.noPage := rfl
@[simp] theorem State.updSlot_keys (n : SlotNum) (f : Slot → Slot) : (s.updSlot n f).keys = s.keys := rfl
@[simp] theorem State.updSlot_scan (n : SlotNum) (f : Slot → Slot) : (s.updSlot n f).scan = s.scan := rfl
@[simp] theorem State.updSlot_interp (n : SlotNum) (f : Slot → Slot) : (s.updSlot n f).interp = s.interp := rfl
@[simp] theorem State.updSlot_reports (n : SlotNum) (f : Slot → Slot) : (s.updSlot n f).reports = s.reports := rfl
@[simp] theorem State.updSlot_store_unit (n : SlotNum) (f : Slot → Slot) : (s.updSlot n f).store.unit = s.store.unit := rfl
@[simp] theorem State.updSlot_outputs (n : SlotNum) (f : Slot → Slot) : (s.updSlot n f).outputs = s.outputs := rfl
@[simp] theorem State.updSlot_choices (n : SlotNum) (f : Slot → Slot) : (s.updSlot n f).choices = s.choices := rfl
@[simp] theorem State.updSlot_pending (n : SlotNum) (f : Slot → Slot) : (s.updSlot n f).pending = s.pending := rfl

/-! ## updTxn -/

@[simp] theorem State.updTxn_pages (f : Transaction → Transaction) : (s.updTxn f).pages = s.pages := rfl
@[simp] theorem State.updTxn_ready (f : Transaction → Transaction) : (s.updTxn f).ready = s.ready := rfl
@[simp] theorem State.updTxn_active (f : Transaction → Transaction) : (s.updTxn f).active = s.active := rfl
@[simp] theorem State.updTxn_noPage (f : Transaction → Transaction) : (s.updTxn f).noPage = s.noPage := rfl
@[simp] theorem State.updTxn_keys (f : Transaction → Transaction) : (s.updTxn f).keys = s.keys := rfl
@[simp] theorem State.updTxn_scan (f : Transaction → Transaction) : (s.updTxn f).scan = s.scan := rfl
@[simp] theorem State.updTxn_interp_state (f : Transaction → Transaction) : (s.updTxn f).interp.state = s.interp.state := rfl
@[simp] theorem State.updTxn_interp_stalled (f : Transaction → Transaction) : (s.updTxn f).interp.stalled = s.interp.stalled := rfl
@[simp] theorem State.updTxn_interp_replyLimit (f : Transaction → Transaction) : (s.updTxn f).interp.replyLimit = s.interp.replyLimit := rfl
@[simp] theorem State.updTxn_interp_confirmWindow (f : Transaction → Transaction) : (s.updTxn f).interp.confirmWindow = s.interp.confirmWindow := rfl
@[simp] theorem State.updTxn_reports (f : Transaction → Transaction) : (s.updTxn f).reports = s.reports := rfl
@[simp] theorem State.updTxn_store (f : Transaction → Transaction) : (s.updTxn f).store = s.store := rfl
@[simp] theorem State.updTxn_outputs (f : Transaction → Transaction) : (s.updTxn f).outputs = s.outputs := rfl
@[simp] theorem State.updTxn_choices (f : Transaction → Transaction) : (s.updTxn f).choices = s.choices := rfl
@[simp] theorem State.updTxn_pending (f : Transaction → Transaction) : (s.updTxn f).pending = s.pending := rfl

/-! ## accept -/

@[simp] theorem State.accept_pages (t : Transaction) : (s.accept t).pages = s.pages := rfl
@[simp] theorem State.accept_ready (t : Transaction) : (s.accept t).ready = s.ready := rfl
@[simp] theorem State.accept_active (t : Transaction) : (s.accept t).active = s.active := rfl
@[simp] theorem State.accept_noPage (t : Transaction) : (s.accept t).noPage = s.noPage := rfl
@[simp] theorem State.accept_keys (t : Transaction) : (s.accept t).keys = s.keys := rfl
@[simp] theorem State.accept_scan (t : Transaction) : (s.accept t).scan = s.scan := rfl
@[simp] theorem State.accept_interp_stalled (t : Transaction) : (s.accept t).interp.stalled = s.interp.stalled := rfl
@[simp] theorem State.accept_interp_replyLimit (t : Transaction) : (s.accept t).interp.replyLimit = s.interp.replyLimit := rfl
@[simp] theorem State.accept_interp_confirmWindow (t : Transaction) : (s.accept t).interp.confirmWindow = s.interp.confirmWindow := rfl
@[simp] theorem State.accept_reports (t : Transaction) : (s.accept t).reports = s.reports := rfl
@[simp] theorem State.accept_store (t : Transaction) : (s.accept t).store = s.store := rfl
@[simp] theorem State.accept_outputs (t : Transaction) : (s.accept t).outputs = s.outputs := rfl
@[simp] theorem State.accept_choices (t : Transaction) : (s.accept t).choices = s.choices := rfl
@[simp] theorem State.accept_pending (t : Transaction) : (s.accept t).pending = s.pending := rfl

/-! ## openTransaction -/

@[simp] theorem State.openTransaction_pages : (s.openTransaction).pages = s.pages := rfl
@[simp] theorem State.openTransaction_ready : (s.openTransaction).ready = s.ready := rfl
@[simp] theorem State.openTransaction_active : (s.openTransaction).active = s.active := rfl
@[simp] theorem State.openTransaction_noPage : (s.openTransaction).noPage = s.noPage := rfl
@[simp] theorem State.openTransaction_keys : (s.openTransaction).keys = s.keys := rfl
@[simp] theorem State.openTransaction_scan : (s.openTransaction).scan = s.scan := rfl
@[simp] theorem State.openTransaction_interp_stalled : (s.openTransaction).interp.stalled = s.interp.stalled := rfl
@[simp] theorem State.openTransaction_interp_replyLimit : (s.openTransaction).interp.replyLimit = s.interp.replyLimit := rfl
@[simp] theorem State.openTransaction_interp_confirmWindow : (s.openTransaction).interp.confirmWindow = s.interp.confirmWindow := rfl
@[simp] theorem State.openTransaction_reports : (s.openTransaction).reports = s.reports := rfl
@[simp] theorem State.openTransaction_store : (s.openTransaction).store = s.store := rfl
@[simp] theorem State.openTransaction_outputs : (s.openTransaction).outputs = s.outputs := rfl
@[simp] theorem State.openTransaction_choices : (s.openTransaction).choices = s.choices := rfl
@[simp] theorem State.openTransaction_pending : (s.openTransaction).pending = s.pending := rfl

/-! ## What an update writes -/

@[simp] theorem State.dropKeys_keys_queue : s.dropKeys.keys.queue = [] := rfl
@[simp] theorem State.dropConfirm_scan_confirm : s.dropConfirm.scan.confirm = none := rfl
@[simp] theorem State.dropConfirm_scan_window : s.dropConfirm.scan.window = none := rfl
@[simp] theorem State.answerScan_scan_answers (a : ScanAnswer) :
    (s.answerScan a).scan.answers = s.scan.answers ++ a.bytes := rfl
@[simp] theorem State.queueReport_reports_queue (r : Report) :
    (s.queueReport r).reports.queue = s.reports.queue ++ [r] := rfl
@[simp] theorem State.updTxn_interp_txn (f : Transaction → Transaction) :
    (s.updTxn f).interp.txn = s.interp.txn.map f := rfl
@[simp] theorem State.accept_interp_txn (t : Transaction) : (s.accept t).interp.txn = some t := rfl
@[simp] theorem State.accept_interp_state (t : Transaction) : (s.accept t).interp.state = .orders := rfl
@[simp] theorem State.openTransaction_interp_txn : s.openTransaction.interp.txn = some .opened := rfl
@[simp] theorem State.openTransaction_interp_state : s.openTransaction.interp.state = .header := rfl

/-! ## Pages -/

@[simp] theorem State.page_setPage_self (p : PageNum) (g : Page) : (s.setPage p g).page p = g := by
  simp [State.page, State.setPage]

theorem State.page_setPage_ne (p q : PageNum) (g : Page) (h : p ≠ q) : (s.setPage p g).page q = s.page q := by
  have h : p.val ≠ q.val := fun e => h (Fin.ext e)
  simp [State.page, State.setPage, Vector.getElem_set_ne, h]

theorem State.page_setPage (p q : PageNum) (g : Page) :
    (s.setPage p g).page q = if q = p then g else s.page q := by
  by_cases h : q = p
  · subst h; simp
  · simp [h, State.page_setPage_ne s p q g (Ne.symm h)]

@[simp] theorem State.page_updPage_self (p : PageNum) (f : Page → Page) : (s.updPage p f).page p = f (s.page p) := by
  simp [State.updPage]

theorem State.page_updPage (p q : PageNum) (f : Page → Page) :
    (s.updPage p f).page q = if q = p then f (s.page p) else s.page q := by
  simp [State.updPage, State.page_setPage]

@[simp] theorem State.page_dropKeys (q : PageNum) : (s.dropKeys).page q = s.page q := rfl
@[simp] theorem State.page_dropConfirm (q : PageNum) : (s.dropConfirm).page q = s.page q := rfl
@[simp] theorem State.page_answerScan (a : ScanAnswer) (q : PageNum) : (s.answerScan a).page q = s.page q := rfl
@[simp] theorem State.page_queueReport (r : Report) (q : PageNum) : (s.queueReport r).page q = s.page q := rfl
@[simp] theorem State.page_updSlot (n : SlotNum) (f : Slot → Slot) (q : PageNum) : (s.updSlot n f).page q = s.page q := rfl
@[simp] theorem State.page_updTxn (f : Transaction → Transaction) (q : PageNum) : (s.updTxn f).page q = s.page q := rfl
@[simp] theorem State.page_accept (t : Transaction) (q : PageNum) : (s.accept t).page q = s.page q := rfl
@[simp] theorem State.page_openTransaction (q : PageNum) : (s.openTransaction).page q = s.page q := rfl

/-! ## Slots -/

@[simp] theorem State.slot_updSlot_self (n : SlotNum) (f : Slot → Slot) : (s.updSlot n f).slot n = f (s.slot n) := by
  simp [State.slot, State.updSlot]

theorem State.slot_updSlot (n m : SlotNum) (f : Slot → Slot) :
    (s.updSlot n f).slot m = if m = n then f (s.slot n) else s.slot m := by
  by_cases h : m = n
  · subst h; simp
  · have h2 : n.val ≠ m.val := fun e => h (Fin.ext e.symm)
    simp [State.slot, State.updSlot, Vector.getElem_set_ne, h, h2]

@[simp] theorem State.slot_updPage (p : PageNum) (f : Page → Page) (n : SlotNum) : (s.updPage p f).slot n = s.slot n := rfl
@[simp] theorem State.slot_setPage (p : PageNum) (g : Page) (n : SlotNum) : (s.setPage p g).slot n = s.slot n := rfl

end Sys2Proof.Machine
end

