-- ==== Sys2Proof/Laws/Feed.lean ====
section
/-! SUPPORT. What a command's bytes come to: a header's bytes are judged as a header, an order's bytes are carried out as an
order, a key's code is a key event, a frame's bytes are judged as a frame. -/

namespace Sys2Proof.Machine

/-! ## The stream port -/

theorem State.takeStream_nil (s : State) : s.takeStream [] = s := rfl

theorem State.takeStream_cons (s : State) (b : Byte) (bs : List Byte) :
    s.takeStream (b :: bs) = (s.takeStreamByte b).takeStream bs := rfl

theorem State.takeStream_append (s : State) (bs cs : List Byte) :
    s.takeStream (bs ++ cs) = (s.takeStream bs).takeStream cs := by
  simp [State.takeStream, List.foldl_append]

/-- R130: while the stall lasts no downstream byte is taken. -/
theorem State.takeStream_stalled (s : State) (bs : List Byte) (h : s.interp.stalled.isSome = true) :
    s.takeStream bs = s := by
  induction bs with
  | nil => rfl
  | cons b bs ih => rw [State.takeStream_cons, State.takeStreamByte, if_pos h, ih]

/-- The bytes of a header taken after START leave the header incomplete until its last byte (R122). -/
theorem State.takeStream_headerPrefix (s : State) (before bytes : List Byte) (hs : s.interp.state = .header)
    (ht : s.interp.txn = some (Transaction.ofHeader before)) (hf : s.interp.stalled = none)
    (hb : ∀ n, 1 ≤ n → n ≤ bytes.length → headerComplete (before ++ bytes.take n) = false) :
    s.takeStream bytes = s.withTxn (Transaction.ofHeader (before ++ bytes)) := by
  induction bytes generalizing s before with
  | nil =>
    rw [State.takeStream_nil, List.append_nil]
    obtain ⟨_, _, _, _, _, _, ⟨i1, i2, i3, i4, i5⟩, _, _, _, _, _⟩ := s
    simp_all [State.withTxn]
  | cons b bs ih =>
    have h1 : headerComplete (before ++ [b]) = false := by simpa using hb 1 (by simp) (by simp)
    have e : s.takeStreamByte b = s.withTxn (Transaction.ofHeader (before ++ [b])) := by
      simp [State.takeStreamByte, hf, State.interpretByte, hs, ht, State.takeHeaderByte, Transaction.ofHeader, h1,
        State.withTxn]
    rw [State.takeStream_cons, e, ih (before := before ++ [b])]
    · simp [State.withTxn]
    · simpa [State.withTxn] using hs
    · simp [State.withTxn]
    · simpa [State.withTxn] using hf
    · intro n hn hl
      have := hb (n + 1) (by omega) (by simp; omega)
      simpa using this

/-- R122, R123: a whole header taken after START is judged. -/
theorem State.takeStream_header (s : State) (bytes : List Byte) (h : s.headerDue)
    (hb : ∀ n, 1 ≤ n → n < bytes.length → headerComplete (bytes.take n) = false)
    (hc : headerComplete bytes = true) :
    s.takeStream bytes = (s.withTxn (Transaction.ofHeader bytes.dropLast)).judgeHeader (Transaction.ofHeader bytes) := by
  obtain ⟨hs, ht, hf⟩ := h
  have hne : bytes ≠ [] := by rintro rfl; simp [headerComplete] at hc
  have hsplit := List.dropLast_append_getLast hne
  have hp : s.takeStream bytes.dropLast = s.withTxn (Transaction.ofHeader bytes.dropLast) := by
    have := State.takeStream_headerPrefix s [] bytes.dropLast hs ht hf (by
      intro n hn hl
      have hl' : n < bytes.length := by simp at hl; have := List.length_pos_iff.2 hne; omega
      have e : bytes.dropLast.take n = bytes.take n := by
        rw [List.dropLast_eq_take, List.take_take]; congr 1; omega
      simpa [e] using hb n hn hl')
    simpa using this
  rw [← hsplit, State.takeStream_append, hsplit, hp, State.takeStream_cons, State.takeStream_nil]
  simp only [State.takeStreamByte, State.withTxn, hf, Option.isSome_none, Bool.false_eq_true, if_false,
    State.interpretByte, hs, State.takeHeaderByte, Transaction.ofHeader, hsplit, hc, if_true]

/-- An order code has a byte of its own, neither START nor END. -/
theorem orderOfByte_ne {b : Byte} {o : OrderCode} (h : orderOfByte b = some o) : b = o.code ∧ b ≠ 0x02#8 ∧ b ≠ 0x03#8 := by
  unfold orderOfByte at h
  have h1 := List.find?_some h
  have h2 : o.code = b := by simpa using h1
  subst h2
  cases o <;> decide

@[simp] theorem orderOfByte_code (o : OrderCode) : orderOfByte o.code = some o := by cases o <;> decide

/-- R124: an order code that the kind allows begins an order. -/
theorem State.takeStreamByte_orderCode (s : State) (t : Transaction) (k : Kind) (o : OrderCode) (h : s.orderDue t k)
    (ha : o.allowedIn k = true) :
    s.takeStreamByte o.code = s.withTxn { t with index := nextIndex t.index, order := [o.code] } := by
  obtain ⟨hs, ht, hk, ho, hf⟩ := h
  have hn := orderOfByte_ne (orderOfByte_code o)
  have hk' : t.header.head?.bind kindOfByte = some k := hk
  simp [State.takeStreamByte, hf, State.interpretByte, hs, ht, ho, State.takeOrderCode, hn.2.1, hn.2.2,
    Transaction.kind, hk', ha, State.withTxn]

/-- The record while an order's operands are being read. -/
def Transaction.reading (t : Transaction) (o : OrderCode) (operands : List Byte) : Transaction :=
  { t with index := nextIndex t.index, order := o.code :: operands }

/-- R124: operand bytes are read until the order's last. -/
theorem State.takeStream_operands (s : State) (t : Transaction) (o : OrderCode) (before operands : List Byte)
    (hs : s.interp.state = .orders) (ht : s.interp.txn = some (t.reading o before)) (hf : s.interp.stalled = none)
    (hm : ∀ n, 1 ≤ n → n ≤ operands.length → operandsRead o (before ++ operands.take n) = .more) :
    s.takeStream operands = s.withTxn (t.reading o (before ++ operands)) := by
  induction operands generalizing s before with
  | nil =>
    rw [State.takeStream_nil, List.append_nil]
    obtain ⟨_, _, _, _, _, _, ⟨i1, i2, i3, i4, i5⟩, _, _, _, _, _⟩ := s
    simp_all [State.withTxn]
  | cons b bs ih =>
    have h1 : operandsRead o (before ++ [b]) = .more := by simpa using hm 1 (by simp) (by simp)
    have e : s.takeStreamByte b = s.withTxn (t.reading o (before ++ [b])) := by
      simp [State.takeStreamByte, hf, State.interpretByte, hs, ht, Transaction.reading, State.takeOperand, h1,
        State.withTxn]
    rw [State.takeStream_cons, e, ih (before := before ++ [b])]
    · simp [State.withTxn]
    · simpa [State.withTxn] using hs
    · simp [State.withTxn]
    · simpa [State.withTxn] using hf
    · intro n hn hl
      have := hm (n + 1) (by omega) (by simp; omega)
      simpa using this

/-- R124: a whole order is carried out once its last operand has been read. -/
theorem State.takeStream_order (s : State) (t : Transaction) (k : Kind) (o : OrderCode) (operands : List Byte)
    (h : s.orderDue t k) (ha : o.allowedIn k = true)
    (hm : ∀ n, 1 ≤ n → n < operands.length → operandsRead o (operands.take n) = .more)
    (hd : operandsRead o operands = .complete) (hne : operands ≠ []) :
    s.takeStream (o.code :: operands) =
      State.settleOrder (t.reading o operands)
        ((s.withTxn (t.reading o operands)).carryOut (t.reading o operands) o operands) := by
  have hc := State.takeStreamByte_orderCode s t k o h ha
  obtain ⟨hs, ht, hk, ho, hf⟩ := h
  have hsplit := List.dropLast_append_getLast hne
  have hp := State.takeStream_operands (s.withTxn (t.reading o [])) t o [] operands.dropLast
    (by simpa [State.withTxn] using hs) (by simp [State.withTxn]) (by simpa [State.withTxn] using hf) (by
      intro n hn hl
      have hl' : n < operands.length := by simp at hl; have := List.length_pos_iff.2 hne; omega
      have e : operands.dropLast.take n = operands.take n := by
        rw [List.dropLast_eq_take, List.take_take]; congr 1; omega
      simpa [e] using hm n hn hl')
  have hr : s.withTxn { t with index := nextIndex t.index, order := [o.code] } = s.withTxn (t.reading o []) := rfl
  rw [State.takeStream_cons, hc, hr]
  conv => lhs; rw [← hsplit]
  rw [State.takeStream_append, hp, State.takeStream_cons, State.takeStream_nil]
  simp only [State.takeStreamByte, State.withTxn, hf, Option.isSome_none, Bool.false_eq_true, if_false,
    State.interpretByte, hs, Transaction.reading, List.nil_append, State.takeOperand, List.cons_append, hsplit,
    List.headD_cons, orderOfByte_code, List.drop_succ_cons, List.drop_zero, hd, reduceCtorEq]

/-- R124: a count refused as soon as it is read aborts the transaction. -/
theorem State.takeStream_refusedCount (s : State) (t : Transaction) (k : Kind) (o : OrderCode) (operands : List Byte)
    (status : Status) (h : s.orderDue t k) (ha : o.allowedIn k = true)
    (hm : ∀ n, 1 ≤ n → n < operands.length → operandsRead o (operands.take n) = .more)
    (hd : operandsRead o operands = .refused status) (hne : operands ≠ []) :
    s.takeStream (o.code :: operands) =
      (s.withTxn (t.reading o operands.dropLast)).abort (t.reading o operands) status (nextIndex t.index)
        .skipping := by
  have hc := State.takeStreamByte_orderCode s t k o h ha
  obtain ⟨hs, ht, hk, ho, hf⟩ := h
  have hsplit := List.dropLast_append_getLast hne
  have hp := State.takeStream_operands (s.withTxn (t.reading o [])) t o [] operands.dropLast
    (by simpa [State.withTxn] using hs) (by simp [State.withTxn]) (by simpa [State.withTxn] using hf) (by
      intro n hn hl
      have hl' : n < operands.length := by simp at hl; have := List.length_pos_iff.2 hne; omega
      have e : operands.dropLast.take n = operands.take n := by
        rw [List.dropLast_eq_take, List.take_take]; congr 1; omega
      simpa [e] using hm n hn hl')
  have hr : s.withTxn { t with index := nextIndex t.index, order := [o.code] } = s.withTxn (t.reading o []) := rfl
  rw [State.takeStream_cons, hc, hr]
  conv => lhs; rw [← hsplit]
  rw [State.takeStream_append, hp, State.takeStream_cons, State.takeStream_nil]
  simp only [State.takeStreamByte, State.withTxn, hf, Option.isSome_none, Bool.false_eq_true, if_false,
    State.interpretByte, hs, Transaction.reading, List.nil_append, State.takeOperand, List.cons_append, hsplit,
    List.headD_cons, orderOfByte_code, List.drop_succ_cons, List.drop_zero, hd, reduceCtorEq]

/-! ## The input port -/

/-- R89: outside a frame a code other than the marker is a key event. -/
theorem State.takeInput_key (s : State) (b : Byte) (hf : s.keys.frame = .absent) (hb : b ≠ 0x1D#8) :
    s.takeInput [b] = s.takeKey b := by
  simp [State.takeInput, State.takeInputByte, hf, hb]

/-- R45, R90: a key taken on the active page outside hold and inhibit first clears the last notice code. -/
theorem State.takeInput_editing (s : State) (p : PageNum) (b : Byte) (h : s.editing p) (hb : b ≠ 0x1D#8) :
    s.takeInput [b] = (s.setNotice p none).actKey p (keyOfByte b) := by
  obtain ⟨ha, hh, hi, hf⟩ := h
  rw [State.takeInput_key s b hf hb]
  simp [State.takeKey, ha, hi, State.editKey, hh]

/-- The state while the characters of a frame are being received. -/
def State.framing (s : State) (n : Nat) (length : Byte) (kept : List Byte) : State :=
  { s with
    keys := { s.keys with frame := .counting n }
    scan := { s.scan with receiving := some { length := length, characters := kept } } }

/-- The state after a frame's last byte has been handed over. -/
def State.unframed (s : State) : State :=
  { s with keys := { s.keys with frame := .absent }, scan := { s.scan with receiving := none } }

theorem State.takeInput_characters (s : State) (length : Byte) (kept characters : List Byte)
    (hne : characters ≠ []) (hl : length.toNat ≤ 64) :
    (s.framing characters.length length kept).takeInput characters =
      s.unframed.judgeFrame length.toNat (kept ++ characters) := by
  induction characters generalizing s kept with
  | nil => exact absurd rfl hne
  | cons b bs ih =>
    cases bs with
    | nil =>
      simp [State.takeInput, State.takeInputByte, State.framing, State.unframed, hl]
    | cons c cs =>
      have e : (s.framing (b :: c :: cs).length length kept).takeInputByte b =
          s.framing (c :: cs).length length (kept ++ [b]) := by
        simp [State.takeInputByte, State.framing, hl]
      have := ih s (kept ++ [b]) (by simp)
      rw [show (s.framing (b :: c :: cs).length length kept).takeInput (b :: c :: cs) =
        ((s.framing (b :: c :: cs).length length kept).takeInputByte b).takeInput (c :: cs) from rfl, e, this]
      simp

theorem State.takeInput_longCharacters (s : State) (length : Byte) (kept characters : List Byte)
    (hne : characters ≠ []) (hl : 64 < length.toNat) :
    (s.framing characters.length length kept).takeInput characters = s.unframed.judgeFrame length.toNat kept := by
  have hl' : ¬length.toNat ≤ 64 := by omega
  induction characters generalizing s with
  | nil => exact absurd rfl hne
  | cons b bs ih =>
    cases bs with
    | nil =>
      simp [State.takeInput, State.takeInputByte, State.framing, State.unframed, hl']
    | cons c cs =>
      have e : (s.framing (b :: c :: cs).length length kept).takeInputByte b =
          s.framing (c :: cs).length length kept := by
        simp [State.takeInputByte, State.framing, hl']
      rw [show (s.framing (b :: c :: cs).length length kept).takeInput (b :: c :: cs) =
        ((s.framing (b :: c :: cs).length length kept).takeInputByte b).takeInput (c :: cs) from rfl, e, ih s (by simp)]

/-- R89, R101: a whole frame of 1–64 characters is judged with its characters. -/
theorem State.takeInput_frame (s : State) (length : Byte) (characters : List Byte) (hf : s.keys.frame = .absent)
    (hl : characters.length = length.toNat) (h0 : 1 ≤ length.toNat) (h64 : length.toNat ≤ 64) :
    s.takeInput (0x1D#8 :: length :: characters) = s.unframed.judgeFrame length.toNat characters := by
  have hne : characters ≠ [] := by rintro rfl; simp at hl; omega
  have hz : length ≠ 0x00#8 := by rintro rfl; simp at h0
  have h := State.takeInput_characters s length [] characters hne h64
  rw [← show (s.takeInputByte 0x1D#8).takeInputByte length = s.framing characters.length length [] by
    simp [State.takeInputByte, hf, hz, State.framing, hl]] at h
  simpa [State.takeInput] using h

/-- R89, R101: a frame of more than 64 characters is judged by its length alone. -/
theorem State.takeInput_longFrame (s : State) (length : Byte) (characters : List Byte) (hf : s.keys.frame = .absent)
    (hl : characters.length = length.toNat) (h64 : 64 < length.toNat) :
    s.takeInput (0x1D#8 :: length :: characters) = s.unframed.judgeFrame length.toNat [] := by
  have hne : characters ≠ [] := by rintro rfl; simp at hl; omega
  have hz : length ≠ 0x00#8 := by rintro rfl; simp at h64
  have h := State.takeInput_longCharacters s length [] characters hne h64
  rw [← show (s.takeInputByte 0x1D#8).takeInputByte length = s.framing characters.length length [] by
    simp [State.takeInputByte, hf, hz, State.framing, hl]] at h
  simpa [State.takeInput] using h

/-- R89, R101: a frame of length 0 is judged at its length byte. -/
theorem State.takeInput_emptyFrame (s : State) (hf : s.keys.frame = .absent) :
    s.takeInput [0x1D#8, 0x00#8] = s.judgeFrame 0 [] := by
  have e : ({ s with keys := { s.keys with frame := .absent } } : State) = s := by
    obtain ⟨_, _, _, _, ⟨k1, k2, k3⟩, _, _, _, _, _, _, _⟩ := s
    simp_all
  simp [State.takeInput, State.takeInputByte, hf]
  rw [e]

end Sys2Proof.Machine
end

