-- ==== Sys2Proof/Laws/Ops.lean ====
section
/-! SUPPORT. What each shared operation does, said once: the answer, inhibit, the close of a transaction, an abort, a refused
header, error hold, an attention, the hand-over of a freed report entry, promotion, and a move that runs no check. -/

namespace Sys2Proof.Machine

/-! ## The answer (R130, R152) -/

section answer

variable (s : State) (r : Report)

theorem State.answer_eq : s.answer r =
    if s.reports.queue.length < 8 then { s with reports := { s.reports with queue := s.reports.queue ++ [r] } }
    else { s with interp := { s.interp with stalled := some r } } := by
  unfold State.answer State.queueFull State.queueReport
  by_cases h : s.reports.queue.length < 8 <;> simp [h, Nat.not_le.2, Nat.not_lt.1]

@[simp] theorem State.answer_pages : (s.answer r).pages = s.pages := by rw [State.answer_eq]; split <;> rfl
@[simp] theorem State.answer_page (p : PageNum) : (s.answer r).page p = s.page p := by
  rw [State.answer_eq]; split <;> rfl
@[simp] theorem State.answer_ready : (s.answer r).ready = s.ready := by rw [State.answer_eq]; split <;> rfl
@[simp] theorem State.answer_active : (s.answer r).active = s.active := by rw [State.answer_eq]; split <;> rfl
@[simp] theorem State.answer_noPage : (s.answer r).noPage = s.noPage := by rw [State.answer_eq]; split <;> rfl
@[simp] theorem State.answer_keys : (s.answer r).keys = s.keys := by rw [State.answer_eq]; split <;> rfl
@[simp] theorem State.answer_scan : (s.answer r).scan = s.scan := by rw [State.answer_eq]; split <;> rfl
@[simp] theorem State.answer_store : (s.answer r).store = s.store := by rw [State.answer_eq]; split <;> rfl
@[simp] theorem State.answer_outputs : (s.answer r).outputs = s.outputs := by rw [State.answer_eq]; split <;> rfl
@[simp] theorem State.answer_choices : (s.answer r).choices = s.choices := by rw [State.answer_eq]; split <;> rfl
@[simp] theorem State.answer_pending : (s.answer r).pending = s.pending := by rw [State.answer_eq]; split <;> rfl
@[simp] theorem State.answer_txn : (s.answer r).interp.txn = s.interp.txn := by
  rw [State.answer_eq]; split <;> rfl

/-- The answer goes where R130 and R152 say. -/
theorem State.answered_answer : s.answered (s.answer r) r := by
  unfold State.answered
  rw [State.answer_eq]
  split <;> simp

end answer

/-! ## Inhibit (R90) -/

/-- Inhibit depends on the active page, its mark and the transaction in flight. -/
theorem State.inhibited_congr {s t : State} (h1 : t.active = s.active) (h2 : t.interp.txn = s.interp.txn)
    (h3 : t.pages = s.pages) : t.inhibited = s.inhibited := by
  simp only [State.inhibited, State.page, h1, h2, h3]

/-- Only an AMEND and a REOPEN inhibit. -/
theorem State.inhibited_of_kind {s : State} {t : Transaction} {k : Kind} (ht : s.interp.txn = some t)
    (hk : t.kind = some k) (h : k ≠ .amend ∧ k ≠ .reopen) : s.inhibited = false := by
  simp only [State.inhibited, ht, Option.bind_some, hk]
  cases k <;> simp_all

theorem State.inhibited_of_noTxn {s : State} (ht : s.interp.txn = none) : s.inhibited = false := by
  simp only [State.inhibited, ht, Option.bind_none]
  cases s.active <;> rfl

/-! ## Closes, aborts and refusals (R123, R126, R127) -/

/-- The page that a transaction names with its mark cleared; nothing changes for a transaction that names none. -/
theorem State.closeTransaction_eq {s : State} (t : Transaction) (next : InterpState) (h : s.inhibited = false) :
    s.closeTransaction t next = { s with interp := { s.interp with txn := none, state := next } }.clearMark t := by
  simp [State.closeTransaction, h]

/-- R126, R127: the answer and the close of a transaction that leaves no input held, on a page. -/
theorem State.closedTo_page {s : State} {t : Transaction} {p : PageNum} (next : InterpState) (r : Report)
    (hp : t.page = some p) (h : s.inhibited = false) :
    (s.setPage p { s.page p with inFlight := false }).closedTo ((s.answer r).closeTransaction t next) next none r := by
  rw [State.closeTransaction_eq _ _ (by rw [State.inhibited_congr (s := s)] <;> simp [h])]
  simp only [State.clearMark, hp]
  unfold State.closedTo State.answered
  rw [State.answer_eq]
  by_cases h8 : s.reports.queue.length < 8 <;> simp [h8, State.updPage, State.setPage, State.page]

/-- R126, R127: the answer and the close of a transaction that names no page. -/
theorem State.closedTo_none {s : State} {t : Transaction} (next : InterpState) (r : Report)
    (hp : t.page = none) (h : s.inhibited = false) :
    s.closedTo ((s.answer r).closeTransaction t next) next none r := by
  rw [State.closeTransaction_eq _ _ (by rw [State.inhibited_congr (s := s)] <;> simp [h])]
  simp only [State.clearMark, hp]
  unfold State.closedTo State.answered
  rw [State.answer_eq]
  by_cases h8 : s.reports.queue.length < 8 <;> simp [h8]

/-- R123: a refused header answers, skips and changes nothing else. -/
theorem State.refusedTo_refuse (s : State) (t before : Transaction) (status : Status) (detail : Nat) :
    s.refusedTo ((s.withTxn before).refuse t status detail) t.tag status detail := by
  unfold State.refusedTo State.refuse State.answered
  rw [State.answer_eq]
  by_cases h8 : s.reports.queue.length < 8 <;> simp [h8, State.withTxn]

/-! ## Error hold and attentions -/

/-- R65: error hold changes the page's hold and notice and empties the type-ahead queue. -/
theorem State.enterHold_eq (s : State) (p : PageNum) (code : ErrorCode) :
    s.enterHold p code =
      { s.setPage p ((s.page p).held code) with keys := { s.keys with queue := [] } } := rfl

/-- R150, R151: an attention is queued, or its cause is recorded while the queue holds 8. -/
theorem State.raiseAttention_eq (s : State) (p : PageNum) (cause : Cause) :
    s.raiseAttention p cause =
      if s.reports.queue.length < 8 then
        { s with reports := { s.reports with queue := s.reports.queue ++ [.attention p cause (s.page p).serial] } }
      else s.setPage p { s.page p with attention := (s.page p).attention.record cause } := by
  unfold State.raiseAttention State.queueFull State.queueReport State.updPage
  by_cases h : s.reports.queue.length < 8 <;> simp [h, Nat.not_le.2, Nat.not_lt.1]

/-- An empty attention set has no first cause. -/
theorem AttentionSet.first_empty : AttentionSet.empty.first = none := by decide

/-- R156: with nothing waiting, a freed entry is handed to nobody. -/
theorem State.handFreed_idle {s : State} (h : s.nothingWaits) : s.handFreed = s := by
  obtain ⟨h1, h2, h3⟩ := h
  have h4 : s.firstAttention = none := by
    simp [State.firstAttention, h3, AttentionSet.first_empty]
  simp [State.handFreed, h1, h2, h4]

/-! ## Promotion (R6) -/

theorem State.promote_active {s : State} {a : PageNum} (h : s.active = some a) : s.promote = s := by
  simp [State.promote, h]

theorem State.promote_empty {s : State} (h : s.ready = []) : s.promote = s := by
  unfold State.promote
  split <;> simp_all

/-- R6: the head becomes ACTIVE; keys typed ahead, a held scan and a first read go. -/
theorem State.promote_head {s : State} {p : PageNum} {rest : List PageNum} (ha : s.active = none)
    (hr : s.ready = p :: rest) :
    s.promote =
      { s.setPage p { s.page p with state := .active } with
        ready := rest
        active := some p
        noPage := none
        keys := { s.keys with queue := [] }
        scan := { s.scan with
          buffer := none
          confirm := none
          window := none
          answers := s.scan.answers ++ if s.scan.buffer = none then [] else [0x15#8, 0x01#8] } } := by
  unfold State.promote
  rw [ha, hr]
  simp only [State.refuseHeld, State.dropKeys, State.updPage, State.setPage]
  cases hb : s.scan.buffer <;>
    simp [hb, State.dropConfirm, State.answerScan, ScanAnswer.bytes]

/-! ## Moves -/

/-- R51 to R53: a move away from a field that is untouched, or within a field, runs no check. -/
theorem State.moveCursor_untouched {s : State} {p : PageNum} {position : Nat} {continuation : Bool}
    (h : ∀ f, (s.page p).entryAt (s.page p).cursor = some f → f.holds position = false → f.touched = false) :
    s.moveCursor p position continuation = s.setPage p ((s.page p).arrive position) := by
  unfold State.moveCursor
  simp only
  split
  · rename_i f hf
    have : f.touched = false := by
      unfold Page.exitOf at hf
      split at hf
      · simp at hf
      · rw [Option.filter_eq_some_iff] at hf
        exact h f hf.1 (by simpa using hf.2)
    simp [this]
  · rfl

/-- R53: where a move's arrival leaves the page. -/
theorem Page.arrive_entersTo (g : Page) (d : Nat) :
    ∃ fields chains current, g.entersTo d fields chains current ∧
      g.arrive d = { g with cursor := d, fields := fields, chains := chains, current := current } := by
  unfold Page.entersTo Page.arrive
  simp only
  cases he : g.entryAt d with
  | none => exact ⟨_, _, _, ⟨rfl, rfl, rfl⟩, rfl⟩
  | some f =>
    by_cases hs : (g.entryAt g.cursor).any (·.number == f.number) = true
    · simp only [Option.filter_some, hs, Bool.not_true, Bool.false_eq_true, if_false, if_true]
      exact ⟨_, _, _, ⟨rfl, rfl, rfl⟩, rfl⟩
    · rw [Bool.not_eq_true] at hs
      simp only [Option.filter_some, hs, Bool.not_false, if_true, Bool.false_eq_true, if_false]
      have hm : ∀ n, Page.memberOf { g with cursor := d } n = g.memberOf n := fun _ => rfl
      unfold Page.enter Page.selectMember
      have hm2 : ((({ g with cursor := d } : Page).updEntry f.number (·.entered)).memberOf f.number) =
          g.memberOf f.number := rfl
      rw [hm2]
      cases hc : g.memberOf f.number with
      | none => exact ⟨_, _, _, ⟨rfl, rfl, rfl⟩, rfl⟩
      | some ck =>
        obtain ⟨c, k⟩ := ck
        exact ⟨_, _, _, ⟨rfl, rfl, rfl⟩, rfl⟩

/-! ## After the reset line -/

/-- Every page's cells are canonical after the reset line. -/
theorem State.reset_cells_wf (p : PageNum) : (State.reset.page p).cells.wf := by
  revert p
  decide

end Sys2Proof.Machine
end

