-- ==== Sys2Proof/Tests/Slice0.lean ====
section
/-! SUPPORT. Tests of the model against the reference's own examples and rules, and a witness for each statement that has
hypotheses. -/

namespace Sys2Proof.Tests

open Sys2Proof.Machine

/-! ## Small states -/

/-- A value read off the state that a command leaves; absent after a stop. -/
def after {α : Type} (c : Instr) (s : State) (look : State → α) : Option α :=
  match exec c s with
  | .next t => some (look t)
  | .fault _ => none
  | .refused _ => none

/-- The state after reset with its START report taken. -/
def quiet : State := { State.reset with reports := { queue := [], taken := 0, padding := 0, notice := none } }

/-- Eight reports queued: no entry is free. -/
def full (s : State) : State := { s with reports := { s.reports with queue := List.replicate 8 .start } }

/-- A header is due. -/
def due : State := { quiet with interp := { quiet.interp with state := .header, txn := some .opened } }

/-- A transaction with this header is in flight on page 0. -/
def inOrders (header : List Byte) (g : Page) (s : State := quiet) : State :=
  { s.setPage 0 { g with inFlight := true } with
    interp := { s.interp with state := .orders, txn := some (.ofHeader header) } }

/-- Page 0 is ACTIVE. -/
def desk (g : Page) (s : State := quiet) : State := { s.setPage 0 { g with state := .active } with active := some 0 }

/-- The items of an ENTRY field as a DEFINE with no options sets them. -/
def items (cls : FieldClass) : EntryItems where
  cls := cls
  source := .both
  mandatory := false
  mustFill := false
  autoSkip := false
  doubleRead := false
  signed := false
  zeroFill := false
  check := .noCheck
  scale := 0
  bound := 0
  exitOption := .nothing
  continuation := none
  touched := false
  checkError := none
  hostMark := none

/-- An ENTRY field. -/
def entryField (number start length : Nat) (e : EntryItems := items .alpha) : Field :=
  { number := number, start := start, length := length, intensity := .normal, blink := false, modified := false,
    entry := some e }

/-- A PROTECTED field. -/
def protectedField (number start length : Nat) : Field :=
  { number := number, start := start, length := length, intensity := .normal, blink := false, modified := false,
    entry := none }

/-- A page with fields. -/
def form (fields : List Field) (cursor : Nat := 0) (cells : Cells := []) : Page :=
  { Page.blank with fields := fields, cursor := cursor, cells := cells }

/-- A chain of one round. -/
def chainOfMembers (members : List Nat) (index : Nat := 0) (remaining : Nat := 1) (count : Nat := 1) : Chain :=
  { action := .nothing, count := count, remaining := remaining, follow := false, members := members, index := index }

/-- A slot in a state. -/
def withSlot (n : SlotNum) (state : SlotState) (s : State := quiet) : State := s.updSlot n fun x => { x with state := state }

/-- The erase unit in a state with a slot in work. -/
def withUnit (state : UnitState) (work : Option SlotNum) (attempts : Nat) (s : State := quiet) : State :=
  { s with store := { s.store with unit := { s.store.unit with state := state, work := work, attempts := attempts } } }

/-- The cells of a page from a position on. -/
def shown (s : State) (start length : Nat) : List Byte := (s.page 0).cells.readRun start length

/-! ## WellFormed: each check refuses an ill-formed term -/

theorem test_wellFormed_stray : (Instr.strayByte 0x02#8).wellFormed = false := by decide
theorem test_wellFormed_store : (Instr.store 0#8 1#8 2#8 [0x41#8]).wellFormed = false := by decide
theorem test_wellFormed_erase : (Instr.erase 0#8 1#8 2#8 [3#8]).wellFormed = false ∧
    (Instr.erase 0#8 1#8 9#8 [3#8]).wellFormed = false := by decide
theorem test_wellFormed_text : (Instr.text 2#8 [0x41#8]).wellFormed = false := by decide
theorem test_wellFormed_message : (Instr.message 57#8 (List.replicate 57 0x41#8)).wellFormed = false := by decide
theorem test_wellFormed_chain : (Instr.chain 0#8 0#8 1#8 0#8 2#8 [20#8]).wellFormed = false := by decide
theorem test_wellFormed_badOrderCode : (Instr.badOrderCode 0x02#8).wellFormed = false ∧
    (Instr.badOrderCode 0x03#8).wellFormed = false := by decide
theorem test_wellFormed_characterKey : (Instr.characterKey 0x1F#8).wellFormed = false ∧
    (Instr.characterKey 0x7F#8).wellFormed = false := by decide
theorem test_wellFormed_unknownKey : (Instr.unknownKey 0x80#8).wellFormed = false ∧
    (Instr.unknownKey 0x1D#8).wellFormed = false ∧ (Instr.unknownKey 0x9D#8).wellFormed = true := by decide
theorem test_wellFormed_scanFrame : (Instr.scanFrame 2#8 [0x31#8]).wellFormed = false := by decide
theorem test_wellFormed_attemptEnd : (Instr.attemptEnd .stopped).wellFormed = false := by decide
theorem test_wellFormed_kind : (Instr.kindNamesNoKind 0x4C#8 0#8 1#8).wellFormed = false ∧
    (Instr.kindNamesNoKind 0x5A#8 0#8 1#8).wellFormed = true := by decide

/-- The table gives its rows no bits. -/
theorem test_decodeTableWord : decodeTableWord 8 0x02 = none := by decide

/-- A step takes the front of the queue. -/
theorem test_step : (match step { quiet with pending := [.start, .load 0#8 1#8] } with
    | .next t => some (t.interp.state, t.pending)
    | .fault _ => none
    | .refused _ => none) = some (.header, [.load 0#8 1#8]) := by decide

/-! ## Resets and framing -/

/-- R155: START is 42h 00h 00h; R120: the reply limit goes back to 30 s. -/
theorem test_resetLine : after .resetLine { quiet with interp := { quiet.interp with replyLimit := 7 } }
    (fun t => (t.interp.replyLimit, t.reports.queue, t.reportBytes .start)) =
    some (30, [.start], [0x42#8, 0x00#8, 0x00#8]) := by decide

/-- R5's example: the queue holds 4 and pages 3 and 1 are SENDING; the queue becomes 1, 3, 4. -/
theorem test_streamReset : after .streamReset
    { desk .blank (((quiet.setPage 1 { Page.blank with state := .sending }).setPage 3
        { Page.blank with state := .sending }).setPage 4 { Page.blank with state := .ready }) with ready := [4] }
    (fun t => (t.ready, (t.page 1).unsent)) = some ([1, 3, 4], true) := by decide

theorem test_start : after .start quiet (·.interp.state) = some .header := by decide
theorem test_strayByte : after (.strayByte 0x41#8) quiet (·.interp.state) = some .between := by decide
theorem test_skippedByte : after (.skippedByte 0x03#8) { quiet with interp := { quiet.interp with state := .skipping } }
    (·.interp.state) = some .between := by decide

/-! ## Headers -/

theorem test_load : after (.load 5#8 1#8) due (fun t => ((t.page 5).state, (t.page 5).inFlight, t.interp.state)) =
    some (.loading, true, .orders) := by decide
theorem test_amend : after (.amend 0#8 1#8) (due.setPage 0 { Page.blank with state := .loading })
    (fun t => (t.interp.state, t.reports.queue)) = some (.skipping, [.completion 1#8 .state 0]) := by decide
theorem test_post : after (.post 6#8 9#8) due (·.reports.queue) = some [.completion 9#8 .badPage 0] := by decide

/-- 01, worked example, 41.0 s: page 0 is AWAITING with serial 2; a REOPEN with serial 1 is refused STALE. -/
theorem test_reopen : after (.reopen 0#8 7#8 1#8) (due.setPage 0 { Page.blank with state := .awaiting, serial := 2#8 })
    (·.reports.queue) = some [.completion 7#8 .stale 0] := by decide

/-- 01, worked example, 31.0 s: page 0 is READY and overdue; a CLOSE is refused LATE. -/
theorem test_close : after (.close 0#8 7#8 1#8)
    (due.setPage 0 { Page.blank with state := .ready, serial := 1#8, overdue := true })
    (·.reports.queue) = some [.completion 7#8 .late 0] := by decide

theorem test_restart : after (.restart 0xFF#8 1#8) due (·.interp.state) = some .orders := by decide
theorem test_setup : after .endTransaction (inOrders [0x53#8, 0#8, 1#8, 0#8, 200#8, 0#8] .blank)
    (fun t => (t.interp.replyLimit, t.interp.confirmWindow, t.keys.typeAhead)) = some (0, 50, false) := by decide
theorem test_query : after (.query 0#8 1#8) due (·.interp.txn) = some (some (.ofHeader [0x51#8, 0#8, 1#8])) := by decide
theorem test_store : after (.store 0#8 1#8 23#8 (ascii "PICKFORM")) (withSlot 23 .filled due)
    (·.reports.queue) = some [.completion 1#8 .notBlank 23] := by decide
theorem test_erase : after (.erase 0#8 1#8 2#8 [9#8, 3#8]) (withSlot 3 .filled due)
    (fun t => (t.store.unit.batch, t.store.unit.window, (t.slot 9).state, (t.slot 3).state)) =
    some ([9, 3], some 20, .queued .blank, .queued .filled) := by decide
theorem test_pause : after (.pause 0#8 1#8) (withUnit .erasing (some 3) 1 due) (·.store.unit.state) = some .pausing := by
  decide
theorem test_resume : after (.resume 0#8 1#8) (withSlot 3 .held (withUnit .paused (some 3) 1 due))
    (fun t => (t.store.unit.state, (t.slot 3).state, t.store.unit.attempts)) = some (.erasing, .erasing, 1) := by decide
theorem test_kindNamesNoKind : after (.kindNamesNoKind 0x5A#8 0#8 1#8) due (·.reports.queue) =
    some [.completion 1#8 .badOrder 0] := by decide

/-! ## Orders -/

/-- An AMEND of page 0 with tag 42 in flight. -/
def amending (g : Page) : State := inOrders [0x41#8, 0#8, 42#8] { g with state := .ready }

/-- A LOAD of page 0 with tag 42 in flight. -/
def loading (g : Page) (s : State := quiet) : State := inOrders [0x4C#8, 0#8, 42#8] { g with state := .loading } s

theorem test_setpos : after (.setpos 23#8 79#8) (amending .blank) (·.interp.txn.map (·.writePos)) = some (some 1919) := by
  decide
theorem test_text : after (.text 2#8 [0x41#8, 0x07#8]) (amending .blank) (fun t => shown t 0 3) =
    some [0x41#8, 0x3F#8, 0x00#8] := by decide
theorem test_repeat : after (.repeatChar 0x2D#8 3#16) (amending .blank)
    (fun t => (shown t 0 4, t.interp.txn.map (·.writePos))) = some ([0x2D#8, 0x2D#8, 0x2D#8, 0x00#8], some 3) := by decide
theorem test_clear : after (.clear 2#16) (amending (form [] 0 [(0, 0x41#8), (2, 0x42#8)])) (fun t => shown t 0 3) =
    some [0x00#8, 0x00#8, 0x42#8] := by decide

/-- The DEFINE of a DIGITS field of 6 cells fed by the scanner (02, worked example). -/
def picking (number : Byte) : DefineOperands :=
  { number := number, length := 6#8, kind := 1#8, cls := 2#8, source := 1#8, flags := 0#8, check := 0#8, scale := 0#8,
    bound := 0#32, presentation := 0#8, exitOption := 0#8, continuation := 0xFF#8 }

theorem test_define : after (.define (picking 20#8)) (loading .blank)
    (fun t => ((t.page 0).fields, (t.page 0).cursor)) =
    some ([entryField 20 0 6 { items .digits with source := .scan }], 0) := by decide

/-- R29: an AMOUNT field's scale is below its length. -/
theorem test_define_badField : after (.define { picking 20#8 with length := 4#8, cls := 3#8, scale := 4#8 })
    (loading .blank) (fun t => ((t.page 0).state, t.reports.queue)) =
    some (.free, [.completion 42#8 .badField 1]) := by decide

/-- The page of 02's worked example after two scans: fields 20, 21 and 22, chain 0 with index 2. -/
def pickingPage (fields members : List Nat) (index : Nat) : Page :=
  { form (fields.map fun n => entryField n (n * 80 - 950) 6 { items .digits with source := .scan }) with
    chains := (Vector.replicate 4 none).set 0 (some (chainOfMembers members index 1 3)) }

/-- 02, worked example, steps 2 and 3. -/
theorem test_drop : after (.drop 20#8) (amending (pickingPage [20, 21, 22] [20, 21, 22] 2))
    (fun t => ((t.page 0).fields.map (·.number), (t.page 0).chains[0].map fun c => (c.members, c.index))) =
    some ([21, 22], some ([21, 22], 1)) := by decide
theorem test_drop_at_index : after (.drop 22#8) (amending (pickingPage [21, 22] [21, 22] 1))
    (fun t => ((t.page 0).fields.map (·.number), (t.page 0).chains[0].map fun c => (c.members, c.index))) =
    some ([21], some ([21], 0)) := by decide

theorem test_cursor : after (.cursor 4#8 33#8) (amending .blank) (fun t => (t.page 0).cursor) = some 353 := by decide
theorem test_message : after (.message 2#8 [0x4F#8, 0x00#8]) (amending .blank) (fun t => (t.page 0).message) =
    some [0x4F#8, 0x3F#8] := by decide
theorem test_mark : after (.mark 20#8 7#8) (amending (pickingPage [20] [20] 0))
    (fun t => (t.page 0).fields.map fun f => f.entry.map (·.hostMark)) = some [some (some 7)] := by decide
theorem test_unmodify : after (.unmodify 0xFF#8) (amending (form [{ protectedField 1 0 4 with modified := true }]))
    (fun t => (t.page 0).fields.map (·.modified)) = some [false] := by decide
theorem test_chain : after (.chain 0#8 0#8 3#8 0#8 2#8 [20#8, 21#8]) (amending (pickingPage [20, 21] [20] 0))
    (fun t => (t.page 0).chains[0]) = some (some (chainOfMembers [20, 21] 0 3 3)) := by decide
theorem test_chain_keyed : after (.chain 1#8 0#8 3#8 0#8 1#8 [9#8])
    (amending (form [entryField 9 0 4 { items .alpha with source := .key }]))
    (fun t => (t.interp.txn.map (·.status), t.interp.txn.map (·.firstSkipped))) =
    some (some .someSkipped, some (some 1)) := by decide
theorem test_unchain : after (.unchain 0#8) (amending { pickingPage [20] [20] 0 with current := some 0 })
    (fun t => ((t.page 0).chains[0], (t.page 0).current)) = some (none, none) := by decide
theorem test_select : after (.select 0#8) (amending (pickingPage [20] [20] 0)) (fun t => (t.page 0).current) =
    some (some 0) := by decide

/-- Slot 4 FILLED with CURSOR 1,2 and MESSAGE "OK". -/
def filledSlot : State :=
  quiet.updSlot 4 fun x => { x with state := .filled, content := [[0x17#8, 1#8, 2#8], [0x18#8, 2#8, 0x4F#8, 0x4B#8]], used := 7 }

theorem test_recall : after (.recall 4#8) (loading .blank filledSlot)
    (fun t => ((t.page 0).cursor, (t.page 0).message, t.interp.txn.map (·.index))) =
    some (82, [0x4F#8, 0x4B#8], some 1) := by decide
theorem test_badOrderCode : after (.badOrderCode 0x99#8) (loading { Page.blank with serial := 3#8 })
    (fun t => ((t.page 0).state, (t.page 0).serial, t.interp.state, t.reports.queue)) =
    some (.free, 3#8, .skipping, [.completion 42#8 .badOrder 1]) := by decide

/-- 11.3, example: an AMEND with tag 42 aborted at its third order by a START byte. -/
theorem test_aborted : after .aborted
    { amending .blank with interp := { (amending .blank).interp with
      txn := some { Transaction.ofHeader [0x41#8, 0#8, 42#8] with index := 2 } } }
    (fun t => t.reports.queue.map t.reportBytes) = some [[0x43#8, 0x00#8, 0x03#8, 0x2A#8, 0x3F#8, 0x03#8]] := by decide

theorem test_end : after .endTransaction (loading .blank) (fun t => ((t.page 0).state, t.active, t.reports.queue)) =
    some (.active, some 0, [.completion 42#8 .ok 0]) := by decide

/-! ## Reports -/

/-- R20, R140: the reply limit is 30 s after the reset line. -/
theorem test_reportByteTaken : after .reportByteTaken
    { quiet.setPage 0 { Page.blank with state := .sending } with
      reports := { queue := [.entry { page := 0, serial := 1#8, sendKey := 0, row := 0, column := 0, fields := [] }]
                   taken := 8, padding := 0, notice := none } }
    (fun t => ((t.page 0).state, (t.page 0).timer, t.outputs.stream)) =
    some (.awaiting, .remaining 30000, some 0x00#8) := by decide

/-- 08, worked example: page 4's three fields make a body of 36 bytes; serial 5, send key 0, cursor 4,33. -/
theorem test_entryReport : (State.reset.reportBytes (.entry
    { page := 4, serial := 5#8, sendKey := 0, row := 4, column := 33,
      fields := [{ number := 50, start := 100, length := 8 }, { number := 51, start := 200, length := 13 },
        { number := 52, start := 300, length := 3 }] })).take 9 =
    [0x45#8, 0#8, 36#8, 4#8, 5#8, 0#8, 4#8, 33#8, 3#8] := by decide

/-- 11.3, example: an ATTN on page 1 with entry serial 3. -/
theorem test_attention : State.reset.reportBytes (.attention 1 .key 3#8) =
    [0x41#8, 0x00#8, 0x04#8, 0x01#8, 0x00#8, 0x00#8, 0x03#8] := by decide

/-! ## Keys -/

theorem test_left : after .left (desk (form [])) (fun t => (t.page 0).cursor) = some 1919 := by decide
theorem test_right : after .right (desk (form [] 1919)) (fun t => (t.page 0).cursor) = some 0 := by decide
theorem test_up : after .up (desk (form [] 5)) (fun t => (t.page 0).cursor) = some 1845 := by decide
theorem test_down : after .down (desk (form [] 1850)) (fun t => (t.page 0).cursor) = some 10 := by decide

/-- The page of 03's worked example; a null is written as a dot there. -/
def rack (cursor : Nat) (insert : Bool) (group : String) : Page :=
  { form
      [entryField 40 410 8 { items .alpha with source := .key, continuation := some 41 },
        entryField 41 490 6 { items .alpha with source := .key }, entryField 42 650 4 (items .digits)] cursor
      (((Cells.writeRun [] 410 ((ascii group).take 8))).writeRun 490 ((ascii group).drop 8)) with insert := insert }

/-- 03, worked example, step 1. -/
theorem test_tab : after .tab (desk (rack 0 false "BAY 4 RACK 2")) (fun t => (t.page 0).cursor) = some 410 := by decide
theorem test_backtab : after .backtab (desk (rack 414 false "BAY 4 RACK 2")) (fun t => (t.page 0).cursor) = some 410 := by
  decide
theorem test_home : after .home (desk (rack 700 false "")) (fun t => (t.page 0).cursor) = some 410 := by decide
theorem test_newline : after .newline (desk (rack 414 false "")) (fun t => (t.page 0).cursor) = some 490 := by decide
theorem test_insert : after .insert (desk (rack 414 false "")) (fun t => (t.page 0).insert) = some true := by decide

/-- 03, worked example, step 4. -/
theorem test_characterKey : after (.characterKey 0x31#8) (desk (rack 414 true "BAY 4 RACK 2"))
    (fun t => (shown t 410 8 ++ shown t 490 5, (t.page 0).cursor,
      (t.page 0).fields.map fun f => (f.modified, f.touched))) =
    some (ascii "BAY 14 RACK 2", 415, [(true, true), (true, false), (false, false)]) := by decide

/-- 03, worked example, step 6. -/
theorem test_characterKey_over : after (.characterKey 0x35#8) (desk (rack 416 true "BAY 104 RACK 2"))
    (fun t => ((t.page 0).hold, (t.page 0).cursor)) = some (some .eOver, 416) := by decide

theorem test_delete : after .delete (desk (rack 415 true "BAY 104 RACK 2")) (fun t => shown t 410 8 ++ shown t 490 6) =
    some (ascii "BAY 14 RACK 2" ++ [0x00#8]) := by decide
theorem test_backspace : after .backspace (desk (rack 490 true "BAY 104 RACK 2"))
    (fun t => ((t.page 0).cursor, shown t 410 8)) = some (417, ascii "BAY 104R") := by decide
theorem test_eraseEof : after .eraseEof (desk (rack 415 true "BAY 104 RACK 2"))
    (fun t => shown t 410 8 ++ shown t 490 6) = some (ascii "BAY 1" ++ List.replicate 9 0x00#8) := by decide
theorem test_clearField : after .clearField (desk (rack 492 true "BAY 104 RACK 2"))
    (fun t => ((t.page 0).cursor, shown t 410 8 ++ shown t 490 6)) = some (410, List.replicate 14 0x00#8) := by decide
theorem test_reset : after .reset (desk { form [] with hold := some .eOver, notice := some (.error .eOver) })
    (fun t => ((t.page 0).hold, (t.page 0).notice)) = some (none, none) := by decide
theorem test_attn : after .attn (full (desk (form []))) (fun t => (t.page 0).attention.key) = some true := by decide
theorem test_park : after .park { desk (form []) (quiet.setPage 3 { Page.blank with state := .ready }) with ready := [3] }
    (fun t => (t.active, t.ready)) = some (some 3, [0]) := by decide
theorem test_enter : after .enter (desk (form [{ protectedField 1 0 5 with modified := true }] 353 [(0, 0x52#8), (1, 0x32#8)]))
    (fun t => ((t.page 0).state, (t.page 0).serial, t.reports.queue)) =
    some (.sending, 1#8, [.entry
      { page := 0, serial := 1#8, sendKey := 0, row := 4, column := 33,
        fields := [{ number := 1, start := 0, length := 2 }] }]) := by decide
theorem test_functionKey : after (.functionKey 11) (full (desk (form []))) (fun t => ((t.page 0).state, (t.page 0).notice)) =
    some (.active, some .eLink) := by decide
theorem test_unknownKey : after (.unknownKey 0x9D#8) (desk (form [])) (fun t => (t.page 0).notice) = some (some .eKey) := by
  decide

/-! ## Checks -/

/-- The AMOUNT field of 04's examples: length 8, scale 2, bound 50000, signed. -/
def amount (zeroFill : Bool) : EntryItems :=
  { items .amount with signed := true, zeroFill := zeroFill, scale := 2, bound := 50000 }

/-- 04, amount examples: "12.5", "-3", "-0.00", "600", "1.234" and "1 2". -/
theorem test_amount_passes :
    exitCheck (amount false) 8 (ascii "12.5" ++ List.replicate 4 0x00#8) = .pass (ascii "   12.50") ∧
    exitCheck (amount true) 8 (ascii "12.5" ++ List.replicate 4 0x00#8) = .pass (ascii "00012.50") ∧
    exitCheck (amount true) 8 (ascii "-3" ++ List.replicate 6 0x00#8) = .pass (ascii "-0003.00") ∧
    exitCheck (amount false) 8 (ascii "-0.00" ++ List.replicate 3 0x00#8) = .pass (ascii "    0.00") := by decide
theorem test_amount_fails :
    exitCheck (amount false) 8 (ascii "600" ++ List.replicate 5 0x00#8) = .fail .eRange ∧
    exitCheck (amount false) 8 (ascii "1.234" ++ List.replicate 3 0x00#8) = .fail .eScale ∧
    exitCheck (amount false) 8 (ascii "1 2" ++ List.replicate 5 0x00#8) = .fail .eForm := by decide

/-- 04, check digit examples. -/
theorem test_checkDigit_m10 : checkDigitHolds .m10 .digits (ascii "7350021453617") = true ∧
    checkDigitHolds .m10 .digits (ascii "7350021453612") = false := by decide
theorem test_checkDigit_m11 : checkDigitHolds .m11 .digits (ascii "403121") = true ∧
    checkDigitHolds .m11 .code (ascii "23X") = true := by decide

/-! ## Scans, the display, expiries and attempts -/

theorem test_scanFrame : after (.scanFrame 2#8 [0x31#8, 0x32#8]) (desk { pickingPage [20] [20] 0 with current := some 0 })
    (fun t => (shown t 650 3, t.scan.answers, (t.page 0).fields.map (·.modified))) =
    some ([0x31#8, 0x32#8, 0x00#8], [0x06#8], [true]) := by decide
theorem test_scanFrame_noPage : after (.scanFrame 1#8 [0x31#8]) quiet (·.scan.answers) = some [0x15#8, 0x02#8] := by decide
theorem test_scanAnswerByteTaken : after .scanAnswerByteTaken
    { quiet with scan := { quiet.scan with answers := [0x15#8, 0x01#8] } }
    (fun t => (t.outputs.input, t.scan.answers)) = some (some 0x15#8, [0x01#8]) := by decide

/-- R179: with no page active the state word is NO FORM. -/
theorem test_rowRequest : after (.rowRequest 24#8) quiet (fun t => match t.outputs.display with
    | some (.row cells) => (cells.map (·.character)).take 15
    | some (.cursor _) => []
    | none => []) = some (ascii "NO FORM   P- Q0") := by decide
theorem test_cursorRequest : after .cursorRequest (desk { form [] 353 with insert := true }) (·.outputs.display) =
    some (some (.cursor (some { row := 4, column := 33, shape := .bar }))) := by decide
theorem test_replyTimerExpiry : after (.replyTimerExpiry 2)
    (desk (form []) (quiet.setPage 2 { Page.blank with state := .awaiting, timer := .remaining 0 }))
    (fun t => ((t.page 2).state, (t.page 2).overdue, t.ready)) = some (.ready, true, [2]) := by decide
theorem test_confirmWindowExpiry : after .confirmWindowExpiry
    { desk (form []) with scan := { quiet.scan with
      confirm := some { characters := [0x31#8], page := 0, field := 20 }, window := some 0 } }
    (fun t => (t.scan.confirm, (t.page 0).notice)) = some (none, some .sRescan) := by decide

/-- R169: the lowest-numbered slot is taken first, whatever the order of the list. -/
theorem test_gatheringWindowExpiry : after .gatheringWindowExpiry
    (withSlot 9 (.queued .blank) (withSlot 3 (.queued .filled) (withUnit .gathering none 0)))
    (fun t => (t.store.unit.work, t.store.unit.state)) = some (some 3, .erasing) := by decide
theorem test_attemptEnd : after (.attemptEnd .fail) (withSlot 3 .erasing (withUnit .erasing (some 3) 3))
    (fun t => ((t.slot 3).state, t.store.unit.state, t.reports.queue.map t.reportBytes)) =
    some (.failed, .idle, [[0x44#8, 0x00#8, 0x03#8, 0x01#8, 0x03#8, 0x01#8]]) := by decide
theorem test_attemptStopped : after (.attemptStopped .stopped) (withSlot 3 .erasing (withUnit .pausing (some 3) 1))
    (fun t => ((t.slot 3).state, t.store.unit.state, t.store.unit.attempts)) = some (.held, .paused, 1) := by decide

/-! ## Laws of concrete pages -/

/-- The law of the fields, on a page whose lists a decision can run through. -/
theorem fieldLaw_of_lists (g : Page) (cursor : g.cursor < 1920)
    (extent : ∀ f ∈ g.fields, 1 ≤ f.length ∧ f.length ≤ 240 ∧ f.start + f.length ≤ 1920)
    (order : g.fields.Pairwise fun f h => f.start + f.length ≤ h.start) (numbers : (g.fields.map (·.number)).Nodup)
    (named : ∀ f ∈ g.fields, f.number ≤ 95)
    (links : ∀ f ∈ g.fields, f.continuation = none ∨ f.isAlpha = true ∧
      ∃ h ∈ g.fields, f.continuation = some h.number ∧ h.isAlpha = true ∧ f.start + f.length ≤ h.start)
    (once : ∀ f ∈ g.fields, ∀ h ∈ g.fields, f.continuation = none ∨ f.continuation ≠ h.continuation ∨ f = h) :
    g.FieldLaw where
  cursor := cursor
  extent := extent
  order := order
  numbers := numbers
  named := named
  links f hf n hn := by
    obtain h | ⟨a, h, m, c, b, l⟩ := links f hf
    · simp [h] at hn
    · exact ⟨a, h, m, by simpa [c] using hn, b, l⟩
  linkOnce f hf h hh n hn hm := by
    obtain k | k | k := once f hf h hh
    · simp [k] at hn
    · exact absurd (hn.trans hm.symm) k
    · exact k

/-- A page without chains keeps the law of chains. -/
theorem chainLaw_of_none (g : Page) (chains : g.chains = Vector.replicate 4 none) (current : g.current = none) :
    g.ChainLaw where
  record c k h := by simp [chains] at h
  member c k h := by simp [chains] at h
  once c d k l h := by simp [chains] at h
  current c h := by simp [current] at h

/-- A page with one chain keeps the law of chains. -/
theorem chainLaw_of_one (g : Page) (c : ChainId) (k : Chain) (at_ : g.chains[c.val] = some k)
    (others : ∀ d : ChainId, d ≠ c → g.chains[d.val] = none)
    (record : k.members.Nodup ∧ k.members.length ≤ 16 ∧ k.index < k.members.length ∧ 1 ≤ k.remaining ∧
      k.remaining ≤ k.count ∧ k.count ≤ 255)
    (member : ∀ n ∈ k.members, ∃ f ∈ g.fields, f.number = n ∧ f.entry.any (·.source ≠ .key) = true)
    (current : ∀ d, g.current = some d → d = c) : g.ChainLaw := by
  have only : ∀ (d : ChainId) (l : Chain), g.chains[d.val] = some l → d = c ∧ l = k := by
    intro d l h
    by_cases e : d = c
    · subst e; exact ⟨rfl, by simpa [at_] using h.symm⟩
    · simp [others d e] at h
  constructor
  · intro d l h; obtain ⟨rfl, rfl⟩ := only d l h; exact record
  · intro d l h; obtain ⟨rfl, rfl⟩ := only d l h; exact member
  · intro d e l m h i _ _ _; exact (only d l h).1.trans (only e m i).1.symm
  · intro d h; rw [current d h, at_]; rfl

/-- No chain of a page without chains has a member. -/
theorem no_members (g : Page) (chains : g.chains = Vector.replicate 4 none) (P : ChainId → Chain → Prop) :
    ∀ (d : ChainId) (ch : Chain), g.chains[d.val] = some ch → P d ch := by
  intro d ch h; simp [chains] at h

/-! ## Witnesses: states and operands that meet the hypotheses of the statements -/

theorem witness_StepRunsFrontCommand : ({ quiet with pending := [.start, .park] } : State).pending = .start :: [.park] :=
  rfl

theorem witness_CommandsLeaveTheQueue : ∃ t, exec .park { desk (form []) with pending := [.start] } = .next t := ⟨_, rfl⟩

theorem witness_StepKeepsCellLaw :
    ({ desk (form [] 0 [(0, 0x41#8), (1919, 0x7E#8)]) with pending := [.endTransaction] } : State).CellLaw ∧
    ∃ t, step { desk (form [] 0 [(0, 0x41#8), (1919, 0x7E#8)]) with pending := [.endTransaction] } = .next t :=
  ⟨by unfold State.CellLaw; decide, _, rfl⟩

theorem witness_StepKeepsReportLaw : ({ full quiet with pending := [.reportByteTaken] } : State).ReportLaw ∧
    ∃ t, step { full quiet with pending := [.reportByteTaken] } = .next t :=
  ⟨⟨by decide, by decide, by show 0 < (full quiet |>.reportBytes .start).length; decide⟩, _, rfl⟩

/-- Page 0 is ACTIVE and page 3 READY. -/
def twoPages : State :=
  { desk (form []) (quiet.setPage 3 { Page.blank with state := .ready }) with ready := [3], pending := [.park] }

theorem twoPages_pageLaw : twoPages.PageLaw where
  active := by decide
  readyOnce := by decide
  ready := by decide
  promoted := by decide
  noPage := by decide
  marked := by
    have : twoPages.inFlightTxn = none := by decide
    simp only [this]; decide
  loading := by
    have : twoPages.inFlightTxn = none := by decide
    simp only [this]; decide
  replied t p h := by
    have : twoPages.inFlightTxn = none := by decide
    simp [this] at h
  entries := by decide
  stalled p r h := by
    have : twoPages.interp.stalled = none := by decide
    simp [this] at h
  timer := by decide
  sent := by decide
  marks := by decide

theorem witness_StepKeepsPageLaw : twoPages.PageLaw ∧ ∃ t, step twoPages = .next t := ⟨twoPages_pageLaw, _, rfl⟩

/-- Page 0 is ACTIVE with the fields of 03's worked example. -/
def rackDesk : State := { desk (rack 414 true "BAY 4 RACK 2") with pending := [.characterKey 0x31#8] }

theorem rackDesk_fieldLaw (p : PageNum) : (rackDesk.page p).FieldLaw := by
  revert p
  have : ∀ p : PageNum, (rackDesk.page p) = if p = 0 then rackDesk.page 0 else .blank := by decide
  intro p
  rw [this]
  split
  · exact fieldLaw_of_lists _ (by decide) (by decide) (by decide) (by decide) (by decide) (by decide) (by decide)
  · exact fieldLaw_of_lists _ (by decide) (by decide) (by decide) (by decide) (by decide) (by decide) (by decide)

theorem witness_StepKeepsFieldLaw : rackDesk.FieldLaw ∧ ∃ t, step rackDesk = .next t :=
  ⟨⟨rackDesk_fieldLaw, by decide⟩, _, rfl⟩

/-- Page 0 is ACTIVE with a chain of two fields, at its last member. -/
def chainDesk : State :=
  { desk { pickingPage [20, 21] [20, 21] 1 with current := some 0 } with pending := [.scanFrame 1#8 [0x31#8]] }

theorem chainDesk_chainLaw : (chainDesk.page 0).ChainLaw :=
  chainLaw_of_one _ 0 (chainOfMembers [20, 21] 1 1 3) (by decide) (by decide) (by decide) (by decide) (by decide)

theorem witness_StepKeepsChainLaw : chainDesk.ChainLaw ∧ ∃ t, step chainDesk = .next t := by
  refine ⟨?_, _, rfl⟩
  have : ∀ p : PageNum, (chainDesk.page p) = if p = 0 then chainDesk.page 0 else .blank := by decide
  intro p
  rw [this]
  split
  · exact chainDesk_chainLaw
  · exact chainLaw_of_none _ rfl rfl

/-- Inhibit: an AMEND of the active page is in flight, with one key typed ahead. -/
def typedAhead : State :=
  { inOrders [0x41#8, 0#8, 42#8] { form [] with state := .active } with
    active := some 0
    keys := { queue := [0x31#8], typeAhead := true, frame := .absent } }

theorem witness_StepKeepsInputLaw : twoPages.PageLaw ∧ twoPages.InputLaw ∧ ∃ t, step twoPages = .next t :=
  ⟨twoPages_pageLaw,
    { bound := by decide, held := by decide, codes := by decide, setting := by decide, buffer := by decide,
      window := by decide,
      confirm := fun r h => by
        have : twoPages.scan.confirm = none := by decide
        simp [this] at h
      counting := by
        have : twoPages.keys.frame = .absent := by decide
        simp [this]
      frame := by
        have : twoPages.scan.receiving = none ∧ twoPages.keys.frame = .absent := by decide
        simp [this]
      settings := by decide },
    _, rfl⟩

/-- The erase unit has slot 3 in work. -/
def erasing : State :=
  { withSlot 3 .erasing with
    store := { (withSlot 3 .erasing).store with
      unit := { state := .erasing, batch := [3], window := none, work := some 3, attempts := 3, result := [] } }
    pending := [.attemptEnd .fail] }

theorem witness_StepKeepsEraseLaw : erasing.EraseLaw ∧ ∃ t, step erasing = .next t :=
  ⟨{ batch := by decide, inBatch := by decide, erasing := by decide, held := by decide, idle := by decide,
     gathering := by decide, window := by decide, working := by decide, paused := by decide, attempts := by decide,
     result := by decide, used := by decide,
     recording := by
      have : erasing.inFlightTxn = none := by decide
      simp only [this]; decide },
    _, rfl⟩

/-- Page 0 is ACTIVE, pages 1 and 5 are SENDING. -/
def sendingPages : State :=
  desk (form []) ((quiet.setPage 1 { Page.blank with state := .sending }).setPage 5
    { Page.blank with state := .sending })

theorem witness_BytesBetweenTransactions : quiet.interp.state = .between ∧ quiet.interp.stalled = none ∧
    (0x00#8 : Byte) ≠ 0x02#8 := by decide

/-- The interpreter is skipping. -/
def skipping : State := { quiet with interp := { quiet.interp with state := .skipping } }

theorem witness_BytesSkipped : skipping.interp.state = .skipping ∧ skipping.interp.stalled = none := by decide

theorem witness_StallHoldsTheStreamPort :
    ({ due with interp := { due.interp with stalled := some .start } } : State).interp.stalled ≠ none ∧
    onStreamPort (.kindNamesNoKind 0x4B#8 0#8 0#8) = true ∧ onStreamPort .aborted = true := by
  decide

/-! ### Headers -/

theorem due_headerDue : due.headerDue := ⟨rfl, rfl, rfl⟩

/-- A header is due and page 5 is in a state. -/
def dueWith (state : PageState) (serial : Byte := 0#8) (overdue : Bool := false) : State :=
  due.setPage 5 { Page.blank with state := state, serial := serial, overdue := overdue }

theorem dueWith_headerDue (state : PageState) (serial : Byte) (overdue : Bool) :
    (dueWith state serial overdue).headerDue := ⟨rfl, rfl, rfl⟩

theorem witness_LoadHeaderNeedsFreePage :
    ((dueWith .free).headerDue ∧ ((dueWith .free).page 5).state = .free) ∧
    ((dueWith .awaiting).headerDue ∧ ((dueWith .awaiting).page 5).state ≠ .free) :=
  ⟨⟨dueWith_headerDue _ _ _, by decide⟩, dueWith_headerDue _ _ _, by decide⟩

theorem witness_AmendAndPostHeaders :
    ((dueWith .awaiting).headerDue ∧ ((dueWith .awaiting).page 5).state = .awaiting) ∧
    ((dueWith .sending).headerDue ∧ ((dueWith .sending).page 5).state = .sending) ∧
    ((dueWith .free).headerDue ∧ ((dueWith .free).page 5).state = .free) :=
  ⟨⟨dueWith_headerDue _ _ _, by decide⟩, ⟨dueWith_headerDue _ _ _, by decide⟩, dueWith_headerDue _ _ _, by decide⟩

theorem witness_ReplyHeaderMatchesSerial :
    ((dueWith .awaiting 255#8).headerDue ∧ ((dueWith .awaiting 255#8).page 5).state = .awaiting ∧
      ((dueWith .awaiting 255#8).page 5).serial = 255#8 ∧ ((dueWith .awaiting 255#8).page 5).serial ≠ 0#8) ∧
    ((dueWith .ready 1#8 true).headerDue ∧ ((dueWith .ready 1#8 true).page 5).state ≠ .awaiting ∧
      ((dueWith .ready 1#8 true).page 5).overdue = true) ∧
    ((dueWith .sending).headerDue ∧ ((dueWith .sending).page 5).state ≠ .awaiting ∧
      ((dueWith .sending).page 5).overdue = false) :=
  ⟨⟨dueWith_headerDue _ _ _, by decide⟩, ⟨dueWith_headerDue _ _ _, by decide⟩, dueWith_headerDue _ _ _, by decide⟩

theorem witness_HeaderKindAndPageChecked : due.headerDue ∧ kindBytes.contains 0x4B#8 = false ∧ 5 < (6#8 : Byte).toNat :=
  ⟨due_headerDue, by decide⟩

theorem witness_PagelessHeadersWait : due.headerDue := due_headerDue

theorem witness_StoreHeaderChecks :
    (ascii "PICKFORM").length = 8 ∧
    ((withUnit .pausing (some 3) 0 due).headerDue ∧ (withUnit .pausing (some 3) 0 due).store.unit.state = .pausing) ∧
    (due.headerDue ∧ ¬(due.store.unit.state = .erasing ∨ due.store.unit.state = .pausing) ∧ 23 < (24#8 : Byte).toNat) ∧
    ((23#8 : Byte) = byteOf (23 : SlotNum).val ∧ (due.slot 23).state = .blank) ∧
    ((withSlot 23 .held due).headerDue ∧ ((withSlot 23 .held due).slot 23).state.inEraseWork = true) ∧
    ((withSlot 23 .failed due).headerDue ∧ ((withSlot 23 .failed due).slot 23).state = .failed) :=
  ⟨by decide, ⟨⟨rfl, rfl, rfl⟩, by decide⟩, ⟨due_headerDue, by decide⟩, by decide, ⟨⟨rfl, rfl, rfl⟩, by decide⟩,
    ⟨rfl, rfl, rfl⟩, by decide⟩

/-- The erase unit is GATHERING with seven slots in the batch. -/
def gatheringDue : State :=
  { withUnit .gathering none 0 due with
    store := { due.store with unit := { due.store.unit with
      state := .gathering, batch := [3, 4, 5, 6, 7, 8, 9], window := some 1 } } }

/-- IDLE and GATHERING, with a slot listed twice, one of the batch and one too many. -/
theorem witness_EraseHeaderChecksAndBegins :
    (due.headerDue ∧ (0#8 : Byte).toNat = 0 ∧ 8 < (9#8 : Byte).toNat) ∧
    ((withUnit .paused none 0 due).headerDue ∧ (withUnit .paused none 0 due).store.unit.state = .paused ∧
      [3#8].length = (1#8 : Byte).toNat) ∧
    (due.store.unit.state = .idle ∧ [3#8, 24#8] = [3#8] ++ 24#8 :: [] ∧ (∀ x ∈ [3#8], x.toNat ≤ 23) ∧
      23 < (24#8 : Byte).toNat ∧ [3#8, 24#8].length = (2#8 : Byte).toNat) ∧
    let ns : List SlotNum := [0, 23, 0, 3, 4, 5, 6, 23]
    gatheringDue.headerDue ∧ gatheringDue.store.unit.state = .gathering ∧ ns.length = (8#8 : Byte).toNat ∧
      ((ns.filter fun n => n ∉ gatheringDue.store.unit.batch ∧ (gatheringDue.slot n).state = .blank).eraseDups.take
        (8 - gatheringDue.store.unit.batch.length)) = [0] ∧
      ns.find? (fun n => n ∉ gatheringDue.store.unit.batch ++ [0]) = some 23 :=
  ⟨⟨due_headerDue, by decide⟩, ⟨⟨rfl, rfl, rfl⟩, by decide⟩, by decide, ⟨rfl, rfl, rfl⟩, by decide⟩

theorem witness_PauseAndResumeHeaders :
    (due.headerDue ∧ due.store.unit.state = .idle ∧ due.store.unit.state ≠ .paused) ∧
    ((withUnit .gathering none 0 due).headerDue ∧ (withUnit .gathering none 0 due).store.unit.state = .gathering) ∧
    ((withUnit .erasing (some 3) 0 due).headerDue ∧ (withUnit .erasing (some 3) 0 due).store.unit.state = .erasing) ∧
    ((withUnit .pausing (some 3) 0 due).headerDue ∧ (withUnit .pausing (some 3) 0 due).store.unit.state = .pausing) ∧
    ((withUnit .paused (some 23) 3 due).headerDue ∧ (withUnit .paused (some 23) 3 due).store.unit.state = .paused ∧
      (withUnit .paused (some 23) 3 due).store.unit.work = some 23) ∧
    ((withSlot 23 (.queued .filled) (withUnit .paused none 0 due)).headerDue ∧
      (withSlot 23 (.queued .filled) (withUnit .paused none 0 due)).store.unit.work = none ∧
      ((withSlot 23 (.queued .filled) (withUnit .paused none 0 due)).slot 23).state = .queued .filled ∧
      ∀ m : SlotNum, m < 23 → ∀ j,
        ((withSlot 23 (.queued .filled) (withUnit .paused none 0 due)).slot m).state ≠ .queued j) := by
  refine ⟨⟨due_headerDue, by decide⟩, ⟨⟨rfl, rfl, rfl⟩, by decide⟩, ⟨⟨rfl, rfl, rfl⟩, by decide⟩,
    ⟨⟨rfl, rfl, rfl⟩, by decide⟩, ⟨⟨rfl, rfl, rfl⟩, by decide⟩, ⟨rfl, rfl, rfl⟩, by decide, by decide, ?_⟩
  have : ∀ m : SlotNum, m < 23 →
      ((withSlot 23 (.queued .filled) (withUnit .paused none 0 due)).slot m).state = .blank := by decide
  intro m h j
  simp [this m h]

/-! ### Orders -/

/-- The record of the AMEND that `amending` has in flight. -/
def amendRecord : Transaction := .ofHeader [0x41#8, 0#8, 42#8]

/-- The record of the LOAD that `loading` has in flight. -/
def loadRecord : Transaction := .ofHeader [0x4C#8, 0#8, 42#8]

/-- A POST of page 0, the active page, in flight. -/
def posting (g : Page) : State := inOrders [0x50#8, 0#8, 42#8] { g with state := .active } (desk .blank)

/-- The record of the POST that `posting` has in flight. -/
def postRecord : Transaction := .ofHeader [0x50#8, 0#8, 42#8]

theorem amending_orderDue (g : Page) : (amending g).orderDue amendRecord .amend ∧ amendRecord.page = some 0 :=
  ⟨⟨rfl, rfl, by decide, rfl, rfl⟩, by decide⟩

theorem loading_orderDue (g : Page) (s : State) (free : s.interp.stalled = none) :
    (loading g s).orderDue loadRecord .load ∧ loadRecord.page = some 0 :=
  ⟨⟨rfl, rfl, by decide, rfl, free⟩, by decide⟩

theorem posting_orderDue (g : Page) : (posting g).orderDue postRecord .post ∧ postRecord.page = some 0 :=
  ⟨⟨rfl, rfl, by decide, rfl, rfl⟩, by decide⟩

theorem witness_PositionAndMessageOrders :
    ((amending .blank).orderDue amendRecord .amend ∧ amendRecord.page = some 0) ∧
    ((posting .blank).orderDue postRecord .post ∧ postRecord.page = some 0) ∧
    (23#8 : Byte).toNat ≤ 23 ∧ (79#8 : Byte).toNat ≤ 79 ∧ (56#8 : Byte).toNat ≤ 56 ∧
    (List.replicate 56 0x7F#8).length = (56#8 : Byte).toNat :=
  ⟨amending_orderDue _, posting_orderDue _, by decide⟩

/-- The AMEND's record with the write position at the page's last cell. -/
def lastPlace : Transaction := { amendRecord with writePos := 1919 }

theorem witness_TextOrdersWriteCells :
    (((amending .blank).withTxn lastPlace).orderDue lastPlace .amend ∧ lastPlace.page = some 0 ∧
      lastPlace.writePos < 1920 ∧ (((amending .blank).withTxn lastPlace).page 0).cells.wf) ∧
    (∃ codes, codesWritten (.repeatChar 0x2D#8 1920#16) = some codes) ∧
    (codesWritten (.text 1#8 [0x07#8]) = some [0x3F#8]) ∧ (∃ codes, codesWritten (.clear 1#16) = some codes) ∧
    ((posting .blank).orderDue postRecord .post ∧
      ∀ i < 2, ((posting .blank).page 0).entryAt ((postRecord.writePos + i) % 1920) = none) ∧
    let s := posting (form [entryField 1 1 3])
    s.orderDue postRecord .post ∧ ∃ i < 2, (s.page 0).entryAt ((postRecord.writePos + i) % 1920) ≠ none :=
  ⟨⟨⟨rfl, rfl, by decide, rfl, rfl⟩, by decide, by decide, by decide⟩, ⟨_, rfl⟩, by decide, ⟨_, rfl⟩,
    ⟨(posting_orderDue _).1, by decide⟩, (posting_orderDue _).1, 1, by decide, by decide⟩

/-- A page of one-cell fields. -/
def cellFields (n : Nat) : Page := { form ((List.range n).map fun i => protectedField i i 1) with state := .ready }

/-- Pages 1 to 3 hold 256 fields of one cell. -/
def poolTaken : State :=
  ((quiet.setPage 1 (cellFields 96)).setPage 2 (cellFields 96)).setPage 3 (cellFields 64)

/-- A page with one field, cells 4 to 6. -/
def oneField : Page := form [protectedField 7 4 3]

theorem oneField_fieldLaw : ((loading oneField).page 0).FieldLaw ∧ ((amending oneField).page 0).FieldLaw :=
  ⟨fieldLaw_of_lists _ (by decide) (by decide) (by decide) (by decide) (by decide) (by decide) (by decide),
    fieldLaw_of_lists _ (by decide) (by decide) (by decide) (by decide) (by decide) (by decide) (by decide)⟩

theorem witness_FailingOrdersAbortALoad :
    ((loading oneField).orderDue loadRecord .load ∧ loadRecord.page = some 0 ∧ ((loading oneField).page 0).FieldLaw) ∧
    ((0x19#8 : Byte) ∉ [0x02#8, 0x03#8, 0x11#8, 0x12#8, 0x13#8, 0x14#8, 0x15#8, 0x16#8, 0x17#8, 0x18#8, 0x1B#8, 0x1D#8,
      0x1E#8]) ∧
    (3 < (4#8 : Byte).toNat ∧ (4#8 : Byte) ≠ 0xFF#8) ∧
    (([20#8] : List Byte).length = (1#8 : Byte).toNat ∧ 2 < (3#8 : Byte).toNat) ∧ 16 < (17#8 : Byte).toNat ∧
    loadRecord.index = 0 ∧ 23 < (24#8 : Byte).toNat ∧
    ((loading oneField).slot 23).state = .blank ∧
    ((loading oneField (withSlot 23 .failed)).slot 23).state = .failed ∧
    ((loading oneField (withSlot 23 .recording)).slot 23).state = .recording ∧
    ((loading oneField (withSlot 23 .held)).slot 23).state.inEraseWork = true ∧
    (((loading oneField (withSlot 23 .filled (withUnit .pausing (some 1) 0))).slot 23).state = .filled ∧
      (loading oneField (withSlot 23 .filled (withUnit .pausing (some 1) 0))).store.unit.state = .pausing) ∧
    (DefineFailsAlone { picking 20#8 with length := 241#8 } ∧
      DefineFailsAlone { picking 20#8 with cls := 1#8, continuation := 7#8 } ∧
      DefineFailsInPage (picking 7#8) ((loading oneField).page 0) 1914 ∧
      DefineFailsInPage (picking 20#8) ((loading oneField).page 0) loadRecord.writePos) ∧
    ((loading .blank poolTaken).orderDue loadRecord .load ∧ 256 ≤ (loading .blank poolTaken).recordsInUse ∧
      ¬DefineFailsAlone (picking 20#8) ∧
      ¬DefineFailsInPage (picking 20#8) ((loading .blank poolTaken).page 0) loadRecord.writePos) := by
  refine ⟨⟨(loading_orderDue _ _ rfl).1, by decide, oneField_fieldLaw.1⟩, by decide, by decide, by decide, by decide,
    by decide, by decide, by decide, by decide, by decide, by decide, by decide, ?_, (loading_orderDue _ _ rfl).1,
    by decide, ?_⟩
  · have fields : ((loading oneField).page 0).fields = [protectedField 7 4 3] := rfl
    simp [DefineFailsAlone, DefineFailsInPage, fields, picking, protectedField]
    decide
  · have fields : ((loading .blank poolTaken).page 0).fields = [] := by decide
    simp [DefineFailsAlone, DefineFailsInPage, fields, picking]
    decide

/-- The DEFINE of an ALPHA field of 4 cells linked to field 8. -/
def linked : DefineOperands :=
  { number := 7#8, length := 4#8, kind := 1#8, cls := 0#8, source := 2#8, flags := 0x4F#8, check := 0#8, scale := 0#8,
    bound := 0#32, presentation := 6#8, exitOption := 2#8, continuation := 8#8 }

/-- The DEFINE of an AMOUNT field with the largest bound. -/
def amountDefine : DefineOperands :=
  { number := 95#8, length := 20#8, kind := 1#8, cls := 3#8, source := 0#8, flags := 0x30#8, check := 0#8, scale := 4#8,
    bound := 999999999#32, presentation := 1#8, exitOption := 1#8, continuation := 0xFF#8 }

theorem alphaPage_fieldLaw : ((amending (form [entryField 8 4 3])).page 0).FieldLaw :=
  fieldLaw_of_lists _ (by decide) (by decide) (by decide) (by decide) (by decide) (by decide) (by decide)

/-- The linked field, and the amount field, as the hypotheses describe them; a PROTECTED field beside. -/
theorem witness_DefineCreatesTheField :
    let s := amending (form [entryField 8 4 3])
    (s.orderDue amendRecord .amend ∧ amendRecord.page = some 0 ∧ (s.page 0).FieldLaw ∧ s.recordsInUse < 256) ∧
    (let e : EntryItems := { items .alpha with
        mandatory := true, mustFill := true, autoSkip := true, doubleRead := true, exitOption := .send,
        continuation := some 8 }
      let f : Field := { entryField 7 0 4 e with intensity := .hidden, blink := true, modified := true }
      let d := linked
      (f.number = d.number.toNat ∧ f.number ≤ 95 ∧ f.start = amendRecord.writePos ∧ f.length = d.length.toNat ∧
        f.start + f.length ≤ 1920 ∧ d.presentation.toNat % 4 = 2 ∧ f.blink = d.presentation.getLsbD 2 ∧
        f.modified = d.flags.getLsbD 6 ∧
        ∀ h ∈ (s.page 0).fields, h.number ≠ f.number ∧ (h.start + h.length ≤ f.start ∨ f.start + f.length ≤ h.start)) ∧
      (d.kind = 0x01#8 ∧ d.source.toNat = 2 ∧ d.exitOption.toNat = 2 ∧ d.check.toNat = 0 ∧
        e.mandatory = d.flags.getLsbD 0 ∧ e.mustFill = d.flags.getLsbD 1 ∧ e.autoSkip = d.flags.getLsbD 2 ∧
        e.doubleRead = d.flags.getLsbD 3 ∧ d.cls = 0x00#8 ∧ d.continuation ≠ 0xFF#8) ∧
      (∃ h ∈ (s.page 0).fields, h.number = d.continuation.toNat ∧ h.isAlpha = true ∧ f.start + f.length ≤ h.start) ∧
      ∀ h ∈ (s.page 0).fields, h.continuation ≠ some d.continuation.toNat) ∧
    (let e := { items .amount with
        source := .key, signed := true, zeroFill := true, scale := 4, bound := 999999999, exitOption := .attn }
      let d := amountDefine
      d.kind = 0x01#8 ∧ d.number.toNat = 95 ∧ d.length.toNat = 20 ∧ d.presentation.toNat % 4 = 1 ∧
        e.signed = d.flags.getLsbD 4 ∧ e.zeroFill = d.flags.getLsbD 5 ∧ e.scale = d.scale.toNat ∧
        e.bound = d.bound.toNat ∧ e.scale < 20 ∧ e.bound ≤ 999999999 ∧ d.continuation = 0xFF#8 ∧
        e.mandatory = d.flags.getLsbD 0 ∧ d.cls = 0x03#8) ∧
    ({ linked with kind := 0x00#8 } : DefineOperands).kind = 0x00#8 :=
  ⟨⟨(amending_orderDue _).1, by decide, alphaPage_fieldLaw, by decide⟩, by decide, by decide, by decide⟩

/-- The page of 02's worked example before the AMEND's second DROP. -/
def dropping : State := amending (pickingPage [20, 21, 22] [20, 21, 22] 2)

theorem dropping_laws : (dropping.page 0).FieldLaw ∧ (dropping.page 0).ChainLaw :=
  ⟨fieldLaw_of_lists _ (by decide) (by decide) (by decide) (by decide) (by decide) (by decide) (by decide),
    chainLaw_of_one _ 0 (chainOfMembers [20, 21, 22] 2 1 3) (by decide) (by decide) (by decide) (by decide) (by decide)⟩

theorem witness_DropReleasesFields :
    (dropping.orderDue amendRecord .amend ∧ amendRecord.page = some 0 ∧ (dropping.page 0).FieldLaw ∧
      (dropping.page 0).ChainLaw) ∧
    (∀ f ∈ (dropping.page 0).fields, f.number ≠ (30#8 : Byte).toNat) ∧
    ((∃ f ∈ (dropping.page 0).fields, f.number = (22#8 : Byte).toNat) ∧
      (dropping.page 0).chains[(0 : ChainId).val] = some (chainOfMembers [20, 21, 22] 2 1 3) ∧
      (chainOfMembers [20, 21, 22] 2 1 3).members[2]? = some (22#8 : Byte).toNat) ∧
    ((∃ f ∈ ((amending (form [entryField 8 4 3])).page 0).fields, f.number = (8#8 : Byte).toNat) ∧
      ((amending (form [entryField 8 4 3])).page 0).ChainLaw ∧
      ∀ (c : ChainId) (ch : Chain), ((amending (form [entryField 8 4 3])).page 0).chains[c.val] = some ch →
        (8#8 : Byte).toNat ∉ ch.members) :=
  ⟨⟨(amending_orderDue _).1, by decide, dropping_laws⟩, by decide, by decide, by decide,
    chainLaw_of_none _ rfl rfl, no_members _ rfl _⟩

theorem witness_MarkAndUnmodify :
    (dropping.orderDue amendRecord .amend ∧ amendRecord.page = some 0 ∧ (dropping.page 0).FieldLaw) ∧
    ((99#8 : Byte).toNat ≤ 99 ∧ ∃ f ∈ (dropping.page 0).fields, f.number = (20#8 : Byte).toNat ∧ f.entry ≠ none) ∧
    ((amending oneField).orderDue amendRecord .amend ∧ ((amending oneField).page 0).FieldLaw ∧
      ∀ f ∈ ((amending oneField).page 0).fields, f.number = (7#8 : Byte).toNat → f.entry = none) ∧
    ((7#8 : Byte) ≠ 0xFF#8 ∧ ∃ f ∈ ((amending oneField).page 0).fields, f.number = (7#8 : Byte).toNat) ∧
    ∀ f ∈ (dropping.page 0).fields, f.number ≠ (7#8 : Byte).toNat :=
  ⟨⟨(amending_orderDue _).1, by decide, dropping_laws.1⟩, by decide,
    ⟨(amending_orderDue _).1, oneField_fieldLaw.2, by decide⟩, by decide, by decide⟩

theorem witness_ChainOrderDefinesTheChain :
    (dropping.orderDue amendRecord .amend ∧ amendRecord.page = some 0 ∧ (dropping.page 0).FieldLaw) ∧
    ((255#8 : Byte) ≠ 0x00#8 ∧ 1 ≤ (2#8 : Byte).toNat ∧ (2#8 : Byte).toNat ≤ 16 ∧
      ([20#8, 21#8] : List Byte).length = (2#8 : Byte).toNat) ∧
    (([20#8, 21#8] : List Byte).Nodup ∧ ∀ b ∈ ([20#8, 21#8] : List Byte),
      (∃ f ∈ (dropping.page 0).fields, f.number = b.toNat ∧ f.entry.any (·.source ≠ .key) = true) ∧
      ∀ (d : ChainId) (ch : Chain), (dropping.page 0).chains[d.val] = some ch → b.toNat ∈ ch.members → d = 0) ∧
    ¬([20#8, 20#8] : List Byte).Nodup := by
  refine ⟨⟨(amending_orderDue _).1, by decide, dropping_laws.1⟩, by decide, ⟨by decide, fun b hb => ⟨?_, ?_⟩⟩, by decide⟩
  · revert b; decide
  · intro d ch h _
    have : ∀ d : ChainId, d ≠ 0 → (dropping.page 0).chains[d.val] = none := by decide
    by_contra e
    simp [this d e] at h

theorem witness_UnchainAndSelect :
    (dropping.orderDue amendRecord .amend ∧ amendRecord.page = some 0) ∧
    (dropping.page 0).chains[(0 : ChainId).val] ≠ none ∧ (dropping.page 0).chains[(3 : ChainId).val] = none :=
  ⟨amending_orderDue _, by decide⟩

/-- Slot 4 holds two orders, slot 5 the second of them, slot 6 none. -/
def templates : State :=
  (filledSlot.updSlot 5 fun x => { x with state := .filled, content := [[0x18#8, 2#8, 0x4F#8, 0x4B#8]], used := 4 }).updSlot
    6 fun x => { x with state := .filled }

theorem witness_RecallReplaysTheTemplate :
    let s := loading .blank templates
    (s.orderDue loadRecord .load ∧ loadRecord.page = some 0 ∧ loadRecord.index = 0 ∧ s.store.unit.state = .idle) ∧
    ((s.slot 6).state = .filled ∧ (s.slot 6).content = []) ∧
    (orderBytes (.cursor 1#8 2#8) = some [0x17#8, 1#8, 2#8] ∧
      (s.slot 4).content = [0x17#8, 1#8, 2#8] :: [[0x18#8, 2#8, 0x4F#8, 0x4B#8]] ∧ (s.slot 4).state = .filled ∧
      (s.slot 5).state = .filled ∧ (s.slot 5).content = [[0x18#8, 2#8, 0x4F#8, 0x4B#8]]) ∧
    ∃ u, exec (.cursor 1#8 2#8) s = .next u :=
  ⟨⟨(loading_orderDue _ _ rfl).1, by decide⟩, by decide, by decide, _, rfl⟩

/-- A STORE into slot 23 is in flight with so many bytes recorded. -/
def storing (used : Nat) : State :=
  inOrders [0x54#8, 0#8, 42#8, 23#8] .blank (quiet.updSlot 23 fun x => { x with state := .recording, used := used })

/-- The record of the STORE that `storing` has in flight. -/
def storeRecord : Transaction := .ofHeader [0x54#8, 0#8, 42#8, 23#8]

theorem storing_orderDue (used : Nat) : (storing used).orderDue storeRecord .store ∧
    slotOfByte (storeRecord.operands.getD 0 0x00#8) = some 23 := ⟨⟨rfl, rfl, by decide, rfl, rfl⟩, by decide⟩

theorem witness_StoreRecordsOrders :
    ((storing 3069).orderDue storeRecord .store ∧ slotOfByte (storeRecord.operands.getD 0 0x00#8) = some 23) ∧
    (storing 3070).orderDue storeRecord .store ∧
    orderBytes (.setpos 23#8 79#8) = some [0x11#8, 23#8, 79#8] ∧
    ((23#8 : Byte).toNat ≤ 23 ∧ (79#8 : Byte).toNat ≤ 79) ∧
    ((storing 3069).slot 23).used + [0x11#8, 23#8, 79#8].length ≤ 3072 ∧
    3072 < ((storing 3070).slot 23).used + [0x11#8, 23#8, 79#8].length ∧
    fieldOf (picking 20#8) 0 ≠ none ∧ (∃ bytes, orderBytes (.define (picking 20#8)) = some bytes) :=
  ⟨storing_orderDue _, (storing_orderDue _).1, by decide, by decide, by decide, by decide, by decide, _, rfl⟩

/-! ### Ends of transactions -/

/-- Page 0 AWAITING with a REOPEN in flight, another page ACTIVE. -/
def reopening : State :=
  { inOrders [0x4F#8, 0#8, 42#8, 0#8] { Page.blank with state := .awaiting, timer := .remaining 5 }
      (quiet.setPage 5 { Page.blank with state := .active }) with active := some 5 }

/-- The record of the REOPEN that `reopening` has in flight. -/
def reopenRecord : Transaction := .ofHeader [0x4F#8, 0#8, 42#8, 0#8]

/-- No transaction, with a page ACTIVE and with none; a LOAD, an AMEND of the active page and a STORE cut short. -/
theorem witness_StreamResetReturnsSendingPages :
    (sendingPages.active ≠ none ∧ sendingPages.interp.state ≠ .orders) ∧
    (let s := quiet.setPage 5 { Page.blank with state := .sending };
      s.active = none ∧ s.interp.state ≠ .orders ∧
        (([0, 1, 2, 3, 4, 5] : List PageNum).filter fun p => (s.page p).state = .sending) ++ s.ready = 5 :: []) ∧
    (let s : State := { typedAhead with keys := quiet.keys };
      s.interp.state = .orders ∧ s.interp.txn = some amendRecord ∧ amendRecord.kind = some .amend ∧ s.nothingWaits ∧
        s.nothingHeld ∧ s.active ≠ none ∧
        (([0, 1, 2, 3, 4, 5] : List PageNum).filter fun p => (s.page p).state = .sending) = []) ∧
    (let s := storing 0;
      s.interp.state = .orders ∧ s.interp.txn = some storeRecord ∧ storeRecord.kind = some .store ∧ s.nothingWaits ∧
        s.nothingHeld ∧ s.active = none ∧ s.ready = []) ∧
    let s := loading .blank
    s.interp.state = .orders ∧ s.interp.txn = some loadRecord ∧ loadRecord.kind = some .load ∧ s.nothingWaits ∧
      s.nothingHeld ∧ s.active = none ∧ s.ready = [] := by
  unfold State.nothingWaits State.nothingHeld; decide

theorem witness_LoadAndReopenEnds :
    (reopening.orderDue reopenRecord .reopen ∧ reopenRecord.page = some 0 ∧ reopening.active = some 5 ∧
      (5 : PageNum) ≠ 0 ∧ (reopening.page 5).inFlight = false) ∧
    ((loading .blank).orderDue loadRecord .load ∧ loadRecord.page = some 0 ∧
      ((loading .blank).page 0).timer = .absent ∧ (loading .blank).active = none ∧ (loading .blank).ready = [] ∧
      (loading .blank).scan.buffer = none) :=
  ⟨⟨⟨rfl, rfl, by decide, rfl, rfl⟩, by decide⟩, (loading_orderDue _ _ rfl).1, by decide⟩

/-- A transaction that names no page is in flight. -/
theorem inOrders_orderDue (header : List Byte) (k : Kind) (h : (Transaction.ofHeader header).kind = some k) :
    (inOrders header .blank).orderDue (.ofHeader header) k := ⟨rfl, rfl, h, rfl, rfl⟩

/-- A LOAD, an AMEND, a POST, a STORE and a QUERY in flight; operands one past their ranges; DEFINE alone and in a page. -/
theorem witness_RefusedOrdersAbort :
    ((loading .blank).orderDue loadRecord .load ∧ (loading .blank).nothingHeld ∧ loadRecord.page ≠ none) ∧
    ((amending oneField).orderDue amendRecord .amend ∧ (amending oneField).nothingHeld ∧ amendRecord.page = some 0 ∧
      ((amending oneField).page 0).FieldLaw) ∧
    ((posting .blank).orderDue postRecord .post ∧ (posting .blank).nothingHeld ∧ postRecord.page ≠ none) ∧
    ((storing 0).orderDue storeRecord .store ∧ (storing 0).nothingHeld ∧
      slotOfByte (storeRecord.operands.getD 0 0x00#8) ≠ none) ∧
    ((inOrders [0x51#8, 0#8, 1#8] .blank).orderDue (.ofHeader [0x51#8, 0#8, 1#8]) .query ∧
      (inOrders [0x51#8, 0#8, 1#8] .blank).nothingHeld) ∧
    (23 < (24#8 : Byte).toNat ∧ 79 < (80#8 : Byte).toNat ∧ (0#16 : BitVec 16).toNat = 0 ∧
      1920 < (1921#16 : BitVec 16).toNat ∧ 56 < (57#8 : Byte).toNat ∧ 99 < (100#8 : Byte).toNat ∧
      3 < (4#8 : Byte).toNat ∧ 2 < (3#8 : Byte).toNat ∧ 16 < (17#8 : Byte).toNat) ∧
    ((0x15#8 : Byte) ∉ [0x11#8, 0x12#8, 0x13#8, 0x14#8, 0x18#8, 0x19#8]) ∧
    DefineFailsAlone { picking 20#8 with number := 96#8 } ∧
    (¬DefineFailsAlone (picking 20#8) ∧ DefineFailsInPage (picking 20#8) oneField 1 ∧
      ¬DefineFailsInPage (picking 20#8) oneField 7) ∧
    (inOrders [0x41#8, 0#8, 42#8] .blank poolTaken).orderDue amendRecord .amend ∧
      256 ≤ (inOrders [0x41#8, 0#8, 42#8] .blank poolTaken).recordsInUse := by
  refine ⟨⟨(loading_orderDue _ _ rfl).1, ?_, by decide⟩,
    ⟨(amending_orderDue _).1, ?_, by decide, oneField_fieldLaw.2⟩, ⟨(posting_orderDue _).1, ?_, by decide⟩,
    ⟨(storing_orderDue _).1, ?_, by decide⟩, ⟨inOrders_orderDue _ _ (by decide), ?_⟩, by decide, by decide, ?_, ?_,
    ⟨rfl, rfl, by decide, rfl, rfl⟩, by decide⟩
  all_goals first
    | (unfold State.nothingHeld; decide)
    | simp [DefineFailsAlone, DefineFailsInPage, picking, oneField, form, protectedField]

theorem witness_OtherEnds :
    ((inOrders [0x43#8, 0#8, 1#8, 0#8] .blank).orderDue (.ofHeader [0x43#8, 0#8, 1#8, 0#8]) .close ∧
      (Transaction.ofHeader [0x43#8, 0#8, 1#8, 0#8]).page = some 0) ∧
    ((posting .blank).orderDue postRecord .post ∧ postRecord.page = some 0) ∧
    ((amending .blank).orderDue amendRecord .amend ∧ (amending .blank).active ≠ some 0 ∧
      (amending .blank).inhibited = false) ∧
    ((storing 0).orderDue storeRecord .store ∧ slotOfByte (storeRecord.operands.getD 0 0x00#8) = some 23) ∧
    ((inOrders [0x45#8, 0#8, 1#8, 1#8, 3#8] .blank).orderDue (.ofHeader [0x45#8, 0#8, 1#8, 1#8, 3#8]) .erase) ∧
    ((inOrders [0x48#8, 0#8, 1#8] .blank).orderDue (.ofHeader [0x48#8, 0#8, 1#8]) .pause) ∧
    ((inOrders [0x55#8, 0#8, 1#8] .blank).orderDue (.ofHeader [0x55#8, 0#8, 1#8]) .resume) ∧
    ((inOrders [0x53#8, 0#8, 1#8, 0#8, 51#8, 0#8] .blank).orderDue
        (.ofHeader [0x53#8, 0#8, 1#8, 0#8, 51#8, 0#8]) .setup ∧
      (Transaction.ofHeader [0x53#8, 0#8, 1#8, 0#8, 51#8, 0#8]).operands = [0#8, 51#8, 0#8]) :=
  ⟨⟨inOrders_orderDue _ _ (by decide), by decide⟩, posting_orderDue _, ⟨(amending_orderDue _).1, by decide⟩,
    storing_orderDue _, inOrders_orderDue _ _ (by decide), inOrders_orderDue _ _ (by decide),
    inOrders_orderDue _ _ (by decide), inOrders_orderDue _ _ (by decide), by decide⟩

/-- A RESTART is in flight while the controller has taken one byte of START. -/
def restarting : State :=
  { inOrders [0x52#8, 0#8, 1#8] .blank with reports := { queue := [.start], taken := 1, padding := 0, notice := none } }

theorem witness_RestartEnds :
    (inOrders [0x52#8, 0#8, 1#8] .blank).orderDue (.ofHeader [0x52#8, 0#8, 1#8]) .restart ∧
    (inOrders [0x52#8, 0#8, 1#8] .blank).reports.taken = 0 ∧
    restarting.orderDue (.ofHeader [0x52#8, 0#8, 1#8]) .restart ∧ restarting.reports.queue = .start :: [] ∧
    restarting.reports.taken ≠ 0 :=
  ⟨inOrders_orderDue _ _ (by decide), by decide, ⟨rfl, rfl, by decide, rfl, rfl⟩, by decide⟩

theorem witness_QueryEnds :
    (inOrders [0x51#8, 0#8, 1#8] .blank).orderDue (.ofHeader [0x51#8, 0#8, 1#8]) .query ∧
    ∀ n : SlotNum, ((inOrders [0x51#8, 0#8, 1#8] .blank).slot n).label.length = 8 :=
  ⟨inOrders_orderDue _ _ (by decide), by decide⟩

/-- One key more behind the one typed ahead; RESET alone; a held scan. -/
theorem witness_KeyTypedAheadActsAtEnd :
    (typedAhead.orderDue amendRecord .amend ∧ amendRecord.page = some 0 ∧ typedAhead.active = some 0 ∧
      (typedAhead.page 0).inFlight = true ∧ (typedAhead.page 0).state ≠ .sending ∧ (0 : PageNum) ∉ typedAhead.ready ∧
      typedAhead.keys.frame = .absent) ∧
    (typedAhead.keys.queue = [] ++ [0x31#8] ∧ [0x31#8, 0x80#8] = [0x31#8] ++ [0x80#8] ∧
      keyCode .left = some 0x80#8 ∧ (0x80#8 : Byte) ≠ 0x1D#8 ∧ (0x80#8 : Byte) ≠ 0x8D#8 ∧
      keyCode .reset = some 0x8D#8 ∧ typedAhead.scan.buffer = none) ∧
    let s : State := { typedAhead with
      keys := quiet.keys, scan := { typedAhead.scan with buffer := some [0x31#8] } }
    s.orderDue amendRecord .amend ∧ s.scan.buffer = some [0x31#8] ∧ s.keys.queue = [] ∧ s.scan.receiving = none ∧
      (s.page 0).hold = none :=
  ⟨⟨⟨rfl, rfl, by decide, rfl, rfl⟩, by decide⟩, by decide, ⟨rfl, rfl, by decide, rfl, rfl⟩, by decide⟩

/-! ### Reports -/

/-- One report queued, with so many of its bytes taken. -/
def offering (r : Report) (taken : Nat) (s : State := quiet) : State :=
  { s with reports := { queue := [r], taken := taken, padding := 0, notice := none } }

theorem witness_ReportBytesAreTakenInOrder :
    ({ quiet with reports := { quiet.reports with padding := 1 } } : State).reports.padding = 0 + 1 ∧
    (quiet.reports.padding = 0 ∧ quiet.reports.queue = []) ∧
    (let s := offering .start 0;
      s.reports.padding = 0 ∧ s.reports.queue = .start :: [] ∧ (s.reportBytes .start)[s.reports.taken]? = some 0x42#8 ∧
        s.reports.taken + 1 < (s.reportBytes .start).length) ∧
    let s := offering .start 2
    s.reports.taken + 1 = (s.reportBytes .start).length ∧ s.nothingWaits ∧
      ∀ p, Report.isEntryOf p .start = false := by
  unfold State.nothingWaits; decide

/-- An entry report without fields from page 5. -/
def emptyEntry : EntryReport := { page := 5, serial := 1#8, sendKey := 0, row := 0, column := 0, fields := [] }

/-- START's last byte is due, and page 5 waits with an attention of CHAIN3. -/
def waitingChain : State :=
  offering .start 2 (quiet.setPage 5 { Page.blank with
    attention := { AttentionSet.empty with chains := AttentionSet.empty.chains.set 3 true } })

/-- START's last byte is due, and page 0 waits with an attention. -/
def waitingSet (set : AttentionSet) : State := offering .start 2 (quiet.setPage 0 { Page.blank with attention := set })

/-- An ENTRY report's last byte with a report stalled: the worked sequence's E0 (R149, R156). -/
theorem witness_LastReportByteFreesTheEntry_entry :
    let s := offering (.entry emptyEntry) 8
      { quiet with interp := { quiet.interp with stalled := some (.completion 7#8 .ok 0) } }
    (s.reports.padding = 0 ∧ s.reports.queue = .entry emptyEntry :: [] ∧
      s.reports.taken + 1 = (s.reportBytes (.entry emptyEntry)).length) ∧
    after .reportByteTaken s (fun t => ((t.page 5).state, (t.page 5).timer)) = some (.awaiting, .remaining 30000) ∧
    after .reportByteTaken s (fun t => (t.reports.queue, t.interp.stalled)) = some ([.completion 7#8 .ok 0], none) := by
  decide

/-- An ENTRY report's last byte and another's, each with every kind of waiting report. -/
theorem witness_LastReportByteFreesTheEntry :
    (let s := offering (.entry emptyEntry) 8 (quiet.setPage 5 { Page.blank with state := .sending });
      s.reports.padding = 0 ∧ s.reports.queue = .entry emptyEntry :: [] ∧
        s.reports.taken + 1 = (s.reportBytes (.entry emptyEntry)).length ∧ s.nothingWaits) ∧
    ((offering .start 2).reports.padding = 0 ∧ (offering .start 2).reports.queue = .start :: [] ∧
      (offering .start 2).reports.taken + 1 = ((offering .start 2).reportBytes .start).length ∧
      (∀ p, Report.isEntryOf p .start = false) ∧ (offering .start 2).nothingWaits) ∧
    (let s := offering .start 2 { quiet with interp := { quiet.interp with stalled := some .start } };
      s.interp.stalled = some .start ∧ s.reports.taken + 1 = (s.reportBytes .start).length) ∧
    (let s : State := { offering .start 2 with
      reports := { (offering .start 2).reports with notice := some [(3, .blank)] } };
      s.interp.stalled = none ∧ s.reports.notice = some [(3, .blank)] ∧
        s.reports.taken + 1 = (s.reportBytes .start).length) ∧
    (waitingChain.interp.stalled = none ∧ waitingChain.reports.notice = none ∧
      (∀ q : PageNum, q < 5 → (waitingChain.page q).attention = .empty) ∧
      (waitingChain.page 5).attention.key = false ∧
      (∀ d : ChainId, d < 3 → (waitingChain.page 5).attention.chains[d.val] = false) ∧
      (waitingChain.page 5).attention.chains[(3 : ChainId).val] = true) ∧
    ((waitingSet { AttentionSet.empty with key := true }).page 0).attention.key = true ∧
    let s := waitingSet { AttentionSet.empty with exit := some 95 }
    (s.page 0).attention.key = false ∧ (∀ d : ChainId, (s.page 0).attention.chains[d.val] = false) ∧
      (s.page 0).attention.exit = some 95 ∧ ∀ q : PageNum, q < 0 → (s.page q).attention = .empty := by
  unfold State.nothingWaits; decide

theorem witness_ReportLayouts : (List.replicate 24 ((3 : SlotNum), EraseOutcome.blank)).length ≤ 24 ∧
    (List.replicate 24 ((3 : SlotNum), EraseOutcome.blank))[23]? = some (3, .blank) ∧
    (quiet.statusReport.pages.length = 6 ∧ quiet.statusReport.slots.length = 24 ∧
      ∀ x ∈ quiet.statusReport.slots, x.label.length = 8) := by decide

/-! ### Keys -/

/-- A page is edited. -/
theorem desk_editing (g : Page) (hold : g.hold = none) : (desk g).editing 0 := ⟨rfl, hold, rfl, rfl⟩

/-- Where the cursor stands in no touched field it is untouched. -/
theorem untouched_of_all (g : Page) (h : ∀ f ∈ g.fields, f.touched = false) : g.cursorUntouched := fun f hf =>
  h f (by
    unfold Page.entryAt Page.fieldAt at hf
    exact List.mem_of_find?_eq_some (Option.filter_eq_some_iff.mp hf).1)

/-- An untouched field is left unchecked. -/
theorem unchecked_of_untouched {g : Page} (h : g.cursorUntouched) (d : Nat) : g.movesUnchecked d := fun f hf =>
  .inl (h f hf)

/-- An active page with two touched fields, 4 to 6 and 90 to 92. -/
def touchedPair (cursor : Nat) : State :=
  desk (form [entryField 7 4 3 { items .alpha with touched := true }, entryField 8 90 3 { items .alpha with touched := true }]
    cursor)

/-- A cursor in no touched field, at both ends of the page, and moving inside a touched one. -/
theorem witness_ArrowKeysMoveTheCursor :
    ((desk (rack 410 false "")).editing 0 ∧ ((desk (rack 410 false "")).page 0).movesUnchecked 411 ∧
      ((desk (rack 410 false "")).page 0).ArrowGoesTo .right 411) ∧
    ((desk (form [] 0)).editing 0 ∧ ((desk (form [] 0)).page 0).movesUnchecked 1919 ∧
      ((desk (form [] 0)).page 0).ArrowGoesTo .left 1919) ∧
    ((desk (form [] 1919)).editing 0 ∧ ((desk (form [] 1919)).page 0).movesUnchecked 79 ∧
      ((desk (form [] 1919)).page 0).ArrowGoesTo .down 79) ∧
    ((touchedPair 5).editing 0 ∧ ((touchedPair 5).page 0).movesUnchecked 4 ∧
      ((touchedPair 5).page 0).ArrowGoesTo .left 4 ∧ ((touchedPair 5).page 0).cursor < 1920) :=
  ⟨⟨desk_editing _ rfl, unchecked_of_untouched (untouched_of_all _ (by decide)) _, by unfold Page.ArrowGoesTo; decide⟩,
    ⟨desk_editing _ rfl, unchecked_of_untouched (untouched_of_all _ (by decide)) _, by unfold Page.ArrowGoesTo; decide⟩,
    ⟨desk_editing _ rfl, unchecked_of_untouched (untouched_of_all _ (by decide)) _, by unfold Page.ArrowGoesTo; decide⟩,
    desk_editing _ rfl, fun f h => .inr (by cases h; decide), by unfold Page.ArrowGoesTo; decide, by decide⟩

/-- The fields of 03's worked example keep the law. -/
theorem rack_fieldLaw : ((desk (rack 0 false "")).page 0).FieldLaw ∧ ((desk (rack 414 false "")).page 0).FieldLaw ∧
    ((desk (rack 700 false "")).page 0).FieldLaw ∧ ((desk (form [])).page 0).FieldLaw := by
  refine ⟨?_, ?_, ?_, ?_⟩ <;>
  exact fieldLaw_of_lists _ (by decide) (by decide) (by decide) (by decide) (by decide) (by decide) (by decide)

/-- A cursor in no ENTRY field is not within one. -/
theorem not_within (g : Page) (h : g.entryAt g.cursor = none) : ¬∃ f, g.entryAt g.cursor = some f ∧ f.start < g.cursor := by
  simp [h]

/-- Each key, with and without a field behind; a page without fields; BACKTAB inside a touched field. -/
theorem witness_FieldKeysMoveTheCursor :
    (∀ g ∈ [rack 0 false "", rack 414 false "", rack 700 false "", form []], ∀ d,
      (desk g).editing 0 ∧ ((desk g).page 0).movesUnchecked d) ∧
    (((desk (rack 0 false "")).page 0).FieldKeyGoesTo .tab 410 ∧
      ((desk (rack 700 false "")).page 0).FieldKeyGoesTo .tab 410 ∧
      ((desk (rack 0 false "")).page 0).FieldKeyGoesTo .backtab 650 ∧
      ((desk (rack 700 false "")).page 0).FieldKeyGoesTo .backtab 650 ∧
      ((desk (rack 700 false "")).page 0).FieldKeyGoesTo .home 410 ∧
      ((desk (rack 414 false "")).page 0).FieldKeyGoesTo .newline 490 ∧
      ((desk (rack 700 false "")).page 0).FieldKeyGoesTo .newline 410) ∧
    (((desk (form [])).page 0).FieldKeyGoesTo .tab 0 ∧ ((desk (form [])).page 0).FieldKeyGoesTo .newline 80) ∧
    ((touchedPair 92).editing 0 ∧ ((touchedPair 92).page 0).movesUnchecked 90 ∧
      ((touchedPair 92).page 0).FieldKeyGoesTo .backtab 90) := by
  refine ⟨fun g m d => ⟨?_, unchecked_of_untouched ?_ d⟩,
    ⟨.inl ⟨rfl, .inl (by unfold IsFirstStart; decide)⟩, .inl ⟨rfl, .inr (.inl (by unfold IsFirstStart; decide))⟩,
      .inr (.inl ⟨rfl, .inr (.inr (.inl ⟨not_within _ (by decide), by unfold IsLastStart; decide⟩))⟩),
      .inr (.inl ⟨rfl, .inr (.inl ⟨not_within _ (by decide), by unfold IsLastStart; decide⟩)⟩),
      .inr (.inr (.inl ⟨rfl, .inl (by unfold IsFirstStart; decide)⟩)),
      .inr (.inr (.inr ⟨rfl, .inl (by unfold IsFirstStart; decide)⟩)),
      .inr (.inr (.inr ⟨rfl, .inr (.inl (by unfold IsFirstStart; decide))⟩))⟩,
    ⟨.inl ⟨rfl, .inr (.inr ⟨rfl, rfl⟩)⟩, .inr (.inr (.inr ⟨rfl, .inr (.inr ⟨rfl, rfl⟩)⟩))⟩,
    desk_editing _ rfl, fun f h => .inr (by cases h; decide), .inr (.inl ⟨rfl, .inl ⟨_, rfl, by decide, rfl⟩⟩)⟩
  · simp only [List.mem_cons, List.not_mem_nil, or_false] at m
    obtain rfl | rfl | rfl | rfl := m <;> exact desk_editing _ rfl
  · simp only [List.mem_cons, List.not_mem_nil, or_false] at m
    obtain rfl | rfl | rfl | rfl := m <;> exact untouched_of_all _ (by decide)

theorem witness_FieldKeysMoveTheCursor_within :
    ∃ f, ((desk (rack 414 false "")).page 0).entryAt 414 = some f ∧ f.start < 414 := ⟨_, rfl, by decide⟩

/-- A touched entry field of two cells, the cursor in its last cell. -/
def leaving (e : EntryItems) (codes : List Byte) : State :=
  desk (form [entryField 7 4 2 { e with touched := true }] 5 (Cells.writeRun [] 4 codes))

/-- What ExitChecksTheTouchedField supposes, of the field of `leaving` and these codes. -/
def Leaves (e : EntryItems) (codes : List Byte) : Prop :=
  let s := leaving e codes
  let x : EntryItems := { e with touched := true }
  s.editing 0 ∧ (s.page 0).FieldLaw ∧ (s.page 0).cells.wf ∧
    (s.page 0).entryAt (s.page 0).cursor = some (entryField 7 4 2 x) ∧ (entryField 7 4 2 x).entry = some x ∧
    x.touched = true ∧ ((s.page 0).cursor + 1) % 1920 = 6 ∧
    ((List.range 2).map fun i => (s.page 0).cells.read (4 + i)) = codes

theorem leaves_of (e : EntryItems) (codes : List Byte) (wf : ((leaving e codes).page 0).cells.wf)
    (reads : ((List.range 2).map fun i => ((leaving e codes).page 0).cells.read (4 + i)) = codes)
    (single : e.continuation = none) : Leaves e codes := by
  refine ⟨desk_editing _ rfl, ?_, wf, rfl, rfl, rfl, rfl, reads⟩
  have h : (leaving e codes).page 0 = { (leaving e codes).page 0 with
    cursor := 5, fields := [entryField 7 4 2 { e with touched := true }] } := rfl
  rw [h]
  constructor <;> simp [entryField, Field.continuation, single]

/-- A letter is no amount. -/
theorem letter_no_amount (a : AmountParsed) : ¬a.Of false [0x41#8, 0x00#8] := by
  intro h
  have m : (0x41#8 : Byte) ∈ a.lead ++ (if a.negative then [0x2D#8] else []) ++ a.whole ++
    (if a.point then 0x2E#8 :: a.fraction else []) ++ a.trail := by rw [← h.codes]; decide
  simp only [List.mem_append] at m
  obtain (((m | m) | m) | m) | m := m
  · have := h.blanks _ (List.mem_append.mpr (.inl m)); revert this; decide
  · split at m <;> simp at m
  · have := h.digits.1 _ m; revert this; decide
  · split at m
    · obtain m | m := List.mem_cons.mp m
      · revert m; decide
      · have := h.digits.2 _ m; revert this; decide
    · simp at m
  · have := h.blanks _ (List.mem_append.mpr (.inr m)); revert this; decide

/-- Where each cursor key takes the cursor out of a touched field. -/
theorem touchedPair_leaves : ((touchedPair 5).page 0).FieldKeyGoesTo .tab 90 ∧
    ((touchedPair 90).page 0).FieldKeyGoesTo .backtab 4 ∧ ((touchedPair 92).page 0).FieldKeyGoesTo .home 4 ∧
    ((touchedPair 6).page 0).FieldKeyGoesTo .newline 90 ∧ ((touchedPair 92).page 0).FieldKeyGoesTo .newline 4 ∧
    ((touchedPair 4).page 0).ArrowGoesTo .left 3 ∧ ((touchedPair 6).page 0).ArrowGoesTo .right 7 ∧
    ((touchedPair 5).page 0).ArrowGoesTo .up 1845 ∧ ((touchedPair 5).page 0).ArrowGoesTo .down 85 := by
  refine ⟨.inl ⟨rfl, .inl (by unfold IsFirstStart; decide)⟩, .inr (.inl ⟨rfl, .inr (.inl ⟨?_, by unfold IsLastStart; decide⟩)⟩),
    .inr (.inr (.inl ⟨rfl, .inl (by unfold IsFirstStart; decide)⟩)),
    .inr (.inr (.inr ⟨rfl, .inl (by unfold IsFirstStart; decide)⟩)),
    .inr (.inr (.inr ⟨rfl, .inr (.inl (by unfold IsFirstStart; decide))⟩)), ?_, ?_, ?_, ?_⟩
  · rintro ⟨f, h, l⟩; cases h; revert l; decide
  all_goals unfold Page.ArrowGoesTo; decide

/-- The page of `touchedPair` keeps the law of fields. -/
theorem touchedPair_fieldLaw : ∀ cursor ∈ [4, 5, 6, 90, 92], ((touchedPair cursor).page 0).FieldLaw := by
  intro c m
  simp only [List.mem_cons, List.not_mem_nil, or_false] at m
  obtain rfl | rfl | rfl | rfl | rfl := m <;>
  exact fieldLaw_of_lists _ (by decide) (by decide) (by decide) (by decide) (by decide) (by decide) (by decide)

/-- No cell listed is canonical. -/
theorem wf_nil : Cells.wf [] := by decide

/-- Each key out of a touched field, at the field's first, middle and last cells (`touchedPair_leaves` has the keys' places). -/
theorem witness_ExitChecksTheTouchedField_keys :
    (∀ cursor ∈ [4, 5, 6, 90, 92], (touchedPair cursor).editing 0 ∧ ((touchedPair cursor).page 0).FieldLaw ∧
      ((touchedPair cursor).page 0).cells.wf) ∧
    (∀ cursor ∈ [4, 5, 6], ((touchedPair cursor).page 0).entryAt ((touchedPair cursor).page 0).cursor =
      some (entryField 7 4 3 { items .alpha with touched := true })) ∧
    ∀ cursor ∈ [90, 92], ((touchedPair cursor).page 0).entryAt ((touchedPair cursor).page 0).cursor =
      some (entryField 8 90 3 { items .alpha with touched := true }) :=
  ⟨fun c m => ⟨desk_editing _ rfl, touchedPair_fieldLaw c m, wf_nil⟩,
    by decide, by decide⟩

/-- Cells blank; formed and filled; not formed; no check digit; not filled; and amounts at the edges of their checks. -/
theorem witness_ExitChecksTheTouchedField :
    Leaves (items .alpha) [0x20#8, 0x00#8] ∧ Leaves { items .digits with exitOption := .attn } [0x30#8, 0x39#8] ∧
    Leaves { items .code with exitOption := .send } [0x61#8, 0x5A#8] ∧
    (Leaves { items .digits with check := .m10 } [0x31#8, 0x31#8] ∧
      checkDigitHolds .m10 .digits [0x31#8, 0x31#8] = false) ∧
    Leaves { items .code with mustFill := true } [0x5A#8, 0x00#8] ∧
    (Leaves { items .amount with scale := 1, bound := 9 } [0x39#8, 0x2E#8] ∧
      let a : AmountParsed :=
        { lead := [], negative := false, whole := [0x39#8], point := true, fraction := [], trail := [] }
      a.Of false [0x39#8, 0x2E#8] ∧ a.magnitude 1 = 90) ∧
    (Leaves (items .amount) [0x41#8, 0x00#8] ∧ ∀ a : AmountParsed, ¬a.Of false [0x41#8, 0x00#8]) ∧
    let a : AmountParsed :=
      { lead := [], negative := false, whole := [], point := true, fraction := [0x35#8], trail := [] }
    Leaves (items .amount) [0x2E#8, 0x35#8] ∧ a.Of false [0x2E#8, 0x35#8] ∧ (items .amount).scale < a.fraction.length :=
  ⟨leaves_of _ _ (by decide) (by decide) rfl, leaves_of _ _ (by decide) (by decide) rfl,
    leaves_of _ _ (by decide) (by decide) rfl, ⟨leaves_of _ _ (by decide) (by decide) rfl, by decide⟩,
    leaves_of _ _ (by decide) (by decide) rfl,
    ⟨leaves_of _ _ (by decide) (by decide) rfl,
      ⟨by decide, by decide, by unfold AllDigits; decide, by decide, by decide, by decide⟩, by decide⟩,
    ⟨leaves_of _ _ (by decide) (by decide) rfl, letter_no_amount⟩,
    leaves_of _ _ (by decide) (by decide) rfl,
    ⟨by decide, by decide, by unfold AllDigits; decide, by decide, by decide, by decide⟩, by decide⟩

/-- An active page with one ENTRY field of three cells, 4 to 6. -/
def keyed (cursor : Nat) (insert : Bool) (cells : Cells := []) (e : EntryItems := items .alpha) : State :=
  desk { form [entryField 7 4 3 e] cursor cells with insert := insert }

/-- The page of `keyed` keeps the law of fields. -/
theorem keyed_fieldLaw (cursor : Nat) (insert : Bool) (cells : Cells) (cls : FieldClass) (signed : Bool)
    (inside : cursor < 1920) : ((keyed cursor insert cells { items cls with signed := signed }).page 0).FieldLaw := by
  have h : ∀ e, (keyed cursor insert cells e).page 0 =
      { (keyed cursor insert cells e).page 0 with cursor := cursor, fields := [entryField 7 4 3 e] } := fun _ => rfl
  rw [h]
  constructor <;> cases cls <;> cases signed <;> simp_all [entryField, Field.continuation, items]

/-- A field linked neither way is a group. -/
theorem isGroup_one (g : Page) (f : Field) (entry : f ∈ g.fields ∧ f.entry.isSome = true)
    (head : ∀ h ∈ g.fields, h.continuation ≠ some f.number) (last : f.continuation = none) : g.IsGroup [f] where
  fields h m := by simp only [List.mem_singleton] at m; exact m ▸ entry
  linked i a b _ h := by simp at h
  head a h := by simp only [List.head?_cons, Option.some.injEq] at h; exact h ▸ head
  last a h := by simp only [List.getLast?_singleton, Option.some.injEq] at h; exact h ▸ last

/-- Two fields, the first linked to the second, are a group. -/
theorem isGroup_two (g : Page) (f h : Field) (entry : ∀ x ∈ [f, h], x ∈ g.fields ∧ x.entry.isSome = true)
    (link : f.continuation = some h.number) (head : ∀ x ∈ g.fields, x.continuation ≠ some f.number)
    (last : h.continuation = none) : g.IsGroup [f, h] where
  fields := entry
  linked i a b ha hb := by
    obtain _ | i := i
    · simp only [List.getElem?_cons_zero, Option.some.injEq, Nat.zero_add, List.getElem?_cons_succ] at ha hb
      exact ha ▸ hb ▸ link
    · simp at hb
  head a k := by simp only [List.head?_cons, Option.some.injEq] at k; exact k ▸ head
  last a k := by
    simp only [List.getLast?_cons_cons, List.getLast?_singleton, Option.some.injEq] at k; exact k ▸ last

/-- The two linked fields of 03's worked example. -/
def rackHead : Field := entryField 40 410 8 { items .alpha with source := .key, continuation := some 41 }

/-- The second of them. -/
def rackTail : Field := entryField 41 490 6 { items .alpha with source := .key }

/-- What CharacterKeyWrites and EditKeysActOnTheField suppose: the group holds the cursor in field f, at place k. -/
def Grouped (s : State) (fs : List Field) (f : Field) (k : Nat) : Prop :=
  s.editing 0 ∧ (s.page 0).FieldLaw ∧ (s.page 0).cells.wf ∧ (s.page 0).IsGroup fs ∧ f ∈ fs ∧
    (s.page 0).entryAt (s.page 0).cursor = some f ∧ (groupCells fs)[k]? = some (s.page 0).cursor

/-- The group of 03's worked example, with text or none and the cursor in its head or its second field. -/
theorem rack_grouped (cursor : Nat) (text : String) (f : Field) (k : Nat) (inside : cursor < 1920)
    (wf : ((desk (rack cursor true text)).page 0).cells.wf) (at_ : ((rack cursor true text).entryAt cursor) = some f)
    (mem : f ∈ [rackHead, rackTail]) (place : (groupCells [rackHead, rackTail])[k]? = some cursor) :
    Grouped (desk (rack cursor true text)) [rackHead, rackTail] f k := by
  have fields : ((desk (rack cursor true text)).page 0).fields = (rack 0 false "").fields := rfl
  exact ⟨desk_editing _ rfl,
    fieldLaw_of_lists _ inside (by rw [fields]; decide) (by rw [fields]; decide) (by rw [fields]; decide)
      (by rw [fields]; decide) (by rw [fields]; decide) (by rw [fields]; decide),
    wf, isGroup_two _ _ _ (by rw [fields]; decide) (by decide) (by rw [fields]; decide) (by decide), mem, at_, place⟩

/-- A single field of `keyed`. -/
theorem keyed_grouped (cursor : Nat) (insert : Bool) (cells : Cells) (cls : FieldClass) (signed : Bool) (k : Nat)
    (inside : cursor < 1920) (wf : ((keyed cursor insert cells { items cls with signed := signed }).page 0).cells.wf)
    (at_ : ((keyed cursor insert cells { items cls with signed := signed }).page 0).entryAt cursor =
      some (entryField 7 4 3 { items cls with signed := signed })) (place : [4, 5, 6][k]? = some cursor) :
    Grouped (keyed cursor insert cells { items cls with signed := signed })
      [entryField 7 4 3 { items cls with signed := signed }]
      (entryField 7 4 3 { items cls with signed := signed }) k :=
  ⟨desk_editing _ rfl, keyed_fieldLaw _ _ _ _ _ inside, wf,
    isGroup_one _ _ ⟨List.mem_singleton.mpr rfl, rfl⟩ (fun h m => by
      obtain rfl := List.mem_singleton.mp m
      simp [Field.continuation, entryField, items]) rfl,
    List.mem_singleton.mpr rfl, at_, place⟩

/-- Each class at a code it admits; a group at its first field's last cell and inside, with its last cell null. -/
theorem witness_CharacterKeyWrites :
    Grouped (keyed 6 true [(4, 0x41#8)]) [entryField 7 4 3] (entryField 7 4 3) 2 ∧
    Grouped (keyed 4 false [] (items .code)) [entryField 7 4 3 (items .code)] (entryField 7 4 3 (items .code)) 0 ∧
    (Grouped (desk (rack 414 true "BAY 4 RACK 2")) [rackHead, rackTail] rackHead 4 ∧
      (groupCells [rackHead, rackTail]).getLast? = some 495 ∧
      ((desk (rack 414 true "BAY 4 RACK 2")).page 0).cells.read 495 = 0x00#8) ∧
    (Grouped (desk (rack 417 true "BAY 4 RACK 2")) [rackHead, rackTail] rackHead 7 ∧ 417 + 1 = rackHead.start +
      rackHead.length ∧ rackHead.continuation = some rackTail.number) ∧
    (Grouped (desk (rack 495 true "")) [rackHead, rackTail] rackTail 13 ∧ rackTail.continuation = none) ∧
    ((items .alpha).Admits 0x7E#8 0x7E#8 ∧ (items .code).Admits 0x7A#8 0x5A#8 ∧ (items .digits).Admits 0x39#8 0x39#8 ∧
      ({ items .amount with signed := true } : EntryItems).Admits 0x2D#8 0x2D#8) := by
  refine ⟨keyed_grouped _ _ _ .alpha false _ (by decide) (by decide) rfl rfl,
    keyed_grouped _ _ _ .code false _ (by decide) (by decide) rfl rfl,
    ⟨rack_grouped _ _ _ _ (by decide) (by decide) rfl (by decide) (by decide), by decide⟩,
    ⟨rack_grouped _ _ _ _ (by decide) (by decide) rfl (by decide) (by decide), by decide⟩,
    ⟨rack_grouped _ _ _ _ (by decide) (by decide) rfl (by decide) (by decide), by decide⟩,
    .inl (by decide), .inr (.inl (by decide)), .inr (.inr (.inr (.inl (by decide)))),
    .inr (.inr (.inr (.inr (by decide))))⟩

theorem witness_RefusedKeysEnterErrorHold :
    ((keyed 7 false).editing 0 ∧ ((keyed 7 false).page 0).entryAt ((keyed 7 false).page 0).cursor = none ∧
      0x20 ≤ (0x20#8 : Byte).toNat) ∧
    ((keyed 4 false [] { items .alpha with source := .scan }).editing 0 ∧
      ((keyed 4 false [] { items .alpha with source := .scan }).page 0).entryAt 4 =
        some (entryField 7 4 3 { items .alpha with source := .scan })) ∧
    ((keyed 4 false [] (items .digits)).editing 0 ∧
      ((keyed 4 false [] (items .digits)).page 0).entryAt 4 = some (entryField 7 4 3 (items .digits)) ∧
      ¬(0x30 ≤ (0x3A#8 : Byte).toNat ∧ (0x3A#8 : Byte).toNat ≤ 0x39)) ∧
    ((keyed 4 false [] (items .code)).editing 0 ∧
      ((keyed 4 false [] (items .code)).page 0).entryAt 4 = some (entryField 7 4 3 (items .code)) ∧
      (0x40#8 : Byte) ≠ 0x2D#8 ∧ ¬(0x30 ≤ (0x40#8 : Byte).toNat ∧ (0x40#8 : Byte).toNat ≤ 0x39) ∧
      ¬(0x41 ≤ (0x40#8 : Byte).toNat ∧ (0x40#8 : Byte).toNat ≤ 0x5A) ∧
      ¬(0x61 ≤ (0x40#8 : Byte).toNat ∧ (0x40#8 : Byte).toNat ≤ 0x7A)) ∧
    ((keyed 4 false [] (items .amount)).editing 0 ∧
      ((keyed 4 false [] (items .amount)).page 0).entryAt 4 = some (entryField 7 4 3 (items .amount)) ∧
      (0x2D#8 : Byte) ≠ 0x2E#8 ∧ ¬((0x2D#8 : Byte) = 0x2D#8 ∧ (items .amount).signed = true)) ∧
    (Grouped (desk (rack 416 true "BAY 104 RACK 2")) [rackHead, rackTail] rackHead 6 ∧
      ((desk (rack 416 true "BAY 104 RACK 2")).page 0).insert = true ∧
      (groupCells [rackHead, rackTail]).getLast? = some 495 ∧
      ((desk (rack 416 true "BAY 104 RACK 2")).page 0).cells.read 495 ≠ 0x00#8 ∧
      ∃ x, (items .alpha).Admits 0x35#8 x) :=
  ⟨⟨desk_editing _ rfl, by decide⟩, ⟨desk_editing _ rfl, by decide⟩, ⟨desk_editing _ rfl, by decide⟩,
    ⟨desk_editing _ rfl, by decide⟩, ⟨desk_editing _ rfl, by decide⟩,
    rack_grouped _ _ _ _ (by decide) (by decide) rfl (by decide) (by decide), rfl, by decide, by decide,
    0x35#8, .inl (by decide)⟩

/-- At a single field's first and last cell; inside a group, at its second field's start and at its head's. -/
theorem witness_EditKeysActOnTheField :
    Grouped (keyed 4 false [(4, 0x41#8)]) [entryField 7 4 3] (entryField 7 4 3) 0 ∧
    Grouped (keyed 6 true [(4, 0x41#8)]) [entryField 7 4 3] (entryField 7 4 3) 2 ∧
    (Grouped (desk (rack 490 true "BAY 104 RACK 2")) [rackHead, rackTail] rackTail 8 ∧ 490 = rackTail.start ∧
      rackHead.continuation = some rackTail.number) ∧
    (Grouped (desk (rack 410 true "BAY 104 RACK 2")) [rackHead, rackTail] rackHead 0 ∧ 410 = rackHead.start ∧
      [rackHead, rackTail].head? = some rackHead) :=
  ⟨keyed_grouped _ _ _ .alpha false _ (by decide) (by decide) rfl rfl,
    keyed_grouped _ _ _ .alpha false _ (by decide) (by decide) rfl rfl,
    ⟨rack_grouped _ _ _ _ (by decide) (by decide) rfl (by decide) (by decide), by decide⟩,
    rack_grouped _ _ _ _ (by decide) (by decide) rfl (by decide) (by decide), by decide⟩

theorem witness_ControlKeys :
    (let s := desk { form [] with hold := some .eOver };
      s.active = some 0 ∧ s.inhibited = false ∧ s.keys.frame = .absent ∧ (s.page 0).hold ≠ none) ∧
    (typedAhead.active = some 0 ∧ typedAhead.inhibited = true ∧ (typedAhead.page 0).hold = none ∧
      typedAhead.keys.frame = .absent ∧ typedAhead.reports.queue.length < 8 ∧ typedAhead.keys.queue ≠ []) ∧
    ((desk (form [])).editing 0 ∧ (desk (form [])).reports.queue.length < 8 ∧ (desk (form [])).ready = [] ∧
      knownInputCode 0x7F#8 = false) ∧
    ((full (desk (form []))).editing 0 ∧ 8 ≤ (full (desk (form []))).reports.queue.length) ∧
    twoPages.editing 0 ∧ twoPages.ready = 3 :: [] ∧ (3 : PageNum) ≠ 0 ∧ twoPages.scan.buffer = none :=
  ⟨by decide, by decide, ⟨desk_editing _ rfl, by decide⟩, ⟨⟨rfl, rfl, rfl, rfl⟩, by decide⟩, ⟨rfl, rfl, rfl, rfl⟩, by decide⟩

/-- An active page with a modified PROTECTED field "R2" and a null behind. -/
def titled : Page := form [{ protectedField 1 0 3 with modified := true }] 353 [(0, 0x52#8), (1, 0x32#8)]

/-- An active page with an unmodified field, then an empty mandatory one. -/
def mandated : Page := form [protectedField 1 0 3, entryField 2 4 3 { items .alpha with mandatory := true }] 6

/-- A touched field under the cursor, passing and failing; a page that passes the walk and sends; a report queue that is
full; a page to promote; a walk that stops at an empty mandatory field and at a modified one. -/
theorem witness_SendKeysSendThePage :
    (Leaves (items .digits) [0x31#8, 0x32#8] ∧ exitCheck { items .digits with touched := true } 2 [0x31#8, 0x32#8] =
      .pass [0x31#8, 0x32#8]) ∧
    (Leaves (items .digits) [0x41#8, 0x32#8] ∧ exitCheck { items .digits with touched := true } 2 [0x41#8, 0x32#8] =
      .fail .eForm) ∧
    ((desk titled).editing 0 ∧ ((desk titled).page 0).FieldLaw ∧ ((desk titled).page 0).cells.wf ∧
      ((desk titled).page 0).cursorUntouched ∧ ∀ f ∈ ((desk titled).page 0).fields, f.entry = none) ∧
    ((desk (form [])).editing 0 ∧ ((desk (form [])).page 0).FieldLaw ∧
      ((desk (form [])).page 0).cursorUntouched ∧ (desk (form [])).ready = [] ∧
      (desk (form [])).reports.queue.length < 8) ∧
    ((full (desk (form []))).editing 0 ∧ ((full (desk (form []))).page 0).FieldLaw ∧
      ((full (desk (form []))).page 0).cursorUntouched ∧ 8 ≤ (full (desk (form []))).reports.queue.length) ∧
    (twoPages.editing 0 ∧ (twoPages.page 0).FieldLaw ∧ (twoPages.page 0).cursorUntouched ∧ twoPages.ready = 3 :: []) ∧
    ((((desk titled).page 0).fields.filter fun f => f.modified).Forall₂ (fun f (x : SentField) => x.number = f.number ∧
      x.start = f.start ∧ x.length ≤ f.length ∧
      (∀ a, f.start + x.length ≤ a → a < f.start + f.length → ((desk titled).page 0).cells.read a = 0x00#8) ∧
      (x.length ≠ 0 → ((desk titled).page 0).cells.read (f.start + x.length - 1) ≠ 0x00#8))
      [{ number := 1, start := 0, length := 2 }]) ∧
    ((desk mandated).editing 0 ∧ ((desk mandated).page 0).FieldLaw ∧ ((desk mandated).page 0).cursorUntouched ∧
      ((desk mandated).page 0).fields =
        [protectedField 1 0 3] ++ entryField 2 4 3 { items .alpha with mandatory := true } :: [] ∧
      ∀ b ∈ (List.range 3).map (fun i => ((desk mandated).page 0).cells.read (4 + i)), b = 0x00#8 ∨ b = 0x20#8) ∧
    let f : Field := { entryField 2 4 3 (items .digits) with modified := true }
    let s := desk (form [f] 0 [(5, 0x41#8)])
    s.editing 0 ∧ (s.page 0).FieldLaw ∧ (s.page 0).cursorUntouched ∧ (s.page 0).fields = [] ++ f :: [] ∧
      exitCheck (items .digits) 3 ((List.range 3).map fun i => (s.page 0).cells.read (4 + i)) = .fail .eForm := by
  have law : ((desk (form [])).page 0).FieldLaw := rack_fieldLaw.2.2.2
  refine ⟨⟨leaves_of _ _ (by decide) (by decide) rfl, by decide⟩, ⟨leaves_of _ _ (by decide) (by decide) rfl, by decide⟩,
    ⟨desk_editing _ rfl, ?_, by decide, untouched_of_all _ (by decide), by decide⟩,
    ⟨desk_editing _ rfl, law, untouched_of_all _ (by decide), by decide⟩,
    ⟨⟨rfl, rfl, rfl, rfl⟩, law, untouched_of_all _ (by decide), by decide⟩,
    ⟨⟨rfl, rfl, rfl, rfl⟩, law, untouched_of_all _ (by decide), by decide⟩, ?_,
    ⟨desk_editing _ rfl, ?_, untouched_of_all _ (by decide), by decide, by decide⟩,
    desk_editing _ rfl, ?_, untouched_of_all _ (by decide), by decide, by decide⟩
  · exact fieldLaw_of_lists _ (by decide) (by decide) (by decide) (by decide) (by decide) (by decide) (by decide)
  · have list : (((desk titled).page 0).fields.filter fun f => f.modified) =
      [{ protectedField 1 0 3 with modified := true }] := by decide
    rw [list]
    refine .cons ⟨rfl, rfl, by decide, fun a h k => ?_, fun _ => by decide⟩ .nil
    obtain rfl : a = 2 := by simp only [protectedField] at h k; omega
    decide
  · exact fieldLaw_of_lists _ (by decide) (by decide) (by decide) (by decide) (by decide) (by decide) (by decide)
  · exact fieldLaw_of_lists _ (by decide) (by decide) (by decide) (by decide) (by decide) (by decide) (by decide)

theorem witness_KeysHeldAndRefused :
    (keyCode (.characterKey 0x31#8) = some 0x31#8 ∧ keyCode .reset = some 0x8D#8 ∧
      keyCode (.unknownKey 0x9D#8) = some 0x9D#8 ∧ knownInputCode 0x9D#8 = false ∧ (0x31#8 : Byte) ≠ 0x1D#8) ∧
    (quiet.active = none ∧ quiet.keys.frame = .absent) ∧
    (let s := desk { form [] with hold := some .eOver };
      s.active = some 0 ∧ (s.page 0).hold ≠ none ∧ s.keys.frame = .absent) ∧
    (typedAhead.active = some 0 ∧ typedAhead.inhibited = true ∧ (typedAhead.page 0).hold = none ∧
      typedAhead.keys.frame = .absent ∧ typedAhead.keys.typeAhead = true ∧ typedAhead.keys.queue.length < 16) ∧
    (let s : State := { typedAhead with keys := { typedAhead.keys with queue := List.replicate 16 0x31#8 } };
      s.inhibited = true ∧ ¬(s.keys.queue.length < 16)) ∧
    let s : State := { typedAhead with keys := { queue := [], typeAhead := false, frame := .absent } }
    s.inhibited = true ∧ s.keys.typeAhead = false := by decide

/-! ### Scans and the display -/

/-- A scan frame is in progress. -/
def inFrame (frame : FrameProgress) (receiving : Option Receiving) : State :=
  { quiet with keys := { quiet.keys with frame := frame }, scan := { quiet.scan with receiving := receiving } }

theorem witness_ScanFramesAreJudged :
    (quiet.frameFree ∧ quiet.active = none ∧ ([] : List Byte).length = (0#8 : Byte).toNat ∧
      (List.replicate 65 0x31#8).length = (65#8 : Byte).toNat ∧ (List.replicate 64 0x31#8).length = (64#8 : Byte).toNat) ∧
    (let s := desk { form [] with hold := some .eOver };
      s.frameFree ∧ s.active = some 0 ∧ (s.page 0).hold ≠ none) ∧
    ((desk (form [])).frameFree ∧ (desk (form [])).active = some 0 ∧ ((desk (form [])).page 0).hold = none ∧
      (desk (form [])).inhibited = false ∧ (desk (form [])).scan.confirm = none ∧
      ((desk (form [])).page 0).current = none ∧
      ((desk (form [])).page 0).entryAt ((desk (form [])).page 0).cursor = none) ∧
    (typedAhead.frameFree ∧ typedAhead.active = some 0 ∧ (typedAhead.page 0).hold = none ∧
      typedAhead.inhibited = true ∧ typedAhead.scan.buffer = none) ∧
    (let s : State := { typedAhead with scan := { typedAhead.scan with buffer := some [0x31#8] } };
      s.frameFree ∧ s.inhibited = true ∧ s.scan.buffer ≠ none) ∧
    (keyCode .tab = some 0x84#8 ∧ keyCode (.unknownKey 0x1D#8) = some 0x1D#8 ∧ keyCode (.unknownKey 0#8) = some 0#8) ∧
    (quiet.keys.frame = .absent ∧ (inFrame .lengthAwaited none).keys.frame = .lengthAwaited) ∧
    (let r : Receiving := { length := 64#8, characters := List.replicate 62 0x31#8 };
      (inFrame (.counting 2) (some r)).keys.frame = .counting 2 ∧ (inFrame (.counting 2) (some r)).scan.receiving = some r) ∧
    let r : Receiving := { length := 64#8, characters := List.replicate 63 0x31#8 }
    (inFrame (.counting 1) (some r)).scan.receiving = some r ∧ (r.characters ++ [0x84#8]).length = r.length.toNat := by
  unfold State.frameFree; decide

/-- An active page with a chain whose index names the second of two ALPHA fields of 6 cells. -/
def filling (action : Action := .nothing) (follow : Bool := false) : State :=
  desk { form [entryField 20 650 6, entryField 21 730 6] with
    chains := (Vector.replicate 4 none).set 3 (some { chainOfMembers [20, 21] 1 1 3 with
      action := action, follow := follow }), current := some 3 }

theorem filling_laws (action : Action) (follow : Bool) : entryField 21 730 6 ∈ ((filling action follow).page 0).fields ∧
    ((filling action follow).page 0).FieldLaw ∧ ((filling action follow).page 0).ChainLaw := by
  cases action <;> cases follow <;>
  exact ⟨by decide,
    fieldLaw_of_lists _ (by decide) (by decide) (by decide) (by decide) (by decide) (by decide) (by decide),
    chainLaw_of_one _ 3 _ rfl (by decide) (by decide) (by decide) (by decide)⟩

/-- A read into a chain's first member, whose follow flag takes the cursor out of a touched field with this code. -/
def following (e : EntryItems) (code : Byte) : State :=
  let g := (filling .nothing true).page 0
  desk { g with
    fields := g.fields ++ [entryField 22 810 2 { e with touched := true }], cursor := 810, cells := [(810, code)]
    chains := g.chains.set 3 (some { chainOfMembers [20, 21] 0 1 3 with follow := true }) }

/-- The field at the cursor with a read of its length and one longer; the chain's member, with the chain's last remaining
read and each action, and with the follow flag, out of a field that fails its check and out of one that passes and sends. -/
theorem witness_ScanDepositsIntoTheField :
    ((keyed 6 false).frameFree ∧ (keyed 6 false).editing 0 ∧ ((keyed 6 false).page 0).FieldLaw ∧
      ((keyed 6 false).page 0).ChainLaw ∧ ((keyed 6 false).page 0).cells.wf ∧ (keyed 6 false).scan.confirm = none ∧
      entryField 7 4 3 ∈ ((keyed 6 false).page 0).fields ∧ ((keyed 6 false).page 0).ReadGoesTo (entryField 7 4 3) ∧
      ∀ (d : ChainId) (ch : Chain), ((keyed 6 false).page 0).chains[d.val] = some ch →
        (entryField 7 4 3).number ∉ ch.members) ∧
    ((items .alpha).source ≠ .key ∧ (items .alpha).doubleRead = false) ∧
    (entryField 7 4 3).Fits (items .alpha) [0x20#8, 0x41#8, 0x7E#8] [0x20#8, 0x41#8, 0x7E#8] [0x20#8, 0x41#8, 0x7E#8] ∧
    ((entryField 7 4 3).length < (List.replicate 64 0x41#8).length ∧ (List.replicate 64 0x41#8).length ≤ 64) ∧
    (∀ (action : Action) (follow : Bool),
      let ch : Chain := { chainOfMembers [20, 21] 1 1 3 with action := action, follow := follow }
      (filling action follow).frameFree ∧ (filling action follow).editing 0 ∧
        ((filling action follow).page 0).FieldLaw ∧ ((filling action follow).page 0).ChainLaw ∧
        entryField 21 730 6 ∈ ((filling action follow).page 0).fields ∧
        ((filling action follow).page 0).ReadGoesTo (entryField 21 730 6) ∧
        ((filling action follow).page 0).chains[(3 : ChainId).val] = some ch ∧ ch.members[1]? = some 21 ∧
        ch.remaining = 1) ∧
    (let s := filling .attn true;
      after (.scanFrame 1#8 [0x31#8]) s (fun t => ((t.page 0).cursor, t.active, (t.page 0).hold, t.reports.queue)) =
        some (650, some 0, none, [.attention 0 (.chain 3) 0#8])) ∧
    after (.scanFrame 1#8 [0x31#8]) (filling .send true) (fun t => ((t.page 0).state, t.active)) =
      some (.sending, none) ∧
    (after (.scanFrame 1#8 [0x31#8]) (following (items .digits) 0x41#8) (fun t => ((t.page 0).hold, (t.page 0).cursor)) =
      some (some .eForm, 810)) ∧
    after (.scanFrame 1#8 [0x31#8]) (following { items .digits with exitOption := .send } 0x31#8)
      (fun t => ((t.page 0).state, (t.page 0).cursor, t.active)) = some (.sending, 730, none) :=
  ⟨⟨⟨rfl, rfl⟩, desk_editing _ rfl, keyed_fieldLaw _ _ _ .alpha false (by decide), chainLaw_of_none _ rfl rfl, by decide,
      rfl, by decide, .inl ⟨rfl, rfl⟩, no_members _ rfl _⟩,
    by decide,
    ⟨by decide, .cons (.inl (by decide)) (.cons (.inl (by decide)) (.cons (.inl (by decide)) .nil)), by decide⟩,
    by decide,
    fun a b => ⟨⟨rfl, rfl⟩, desk_editing _ rfl, (filling_laws a b).2.1, (filling_laws a b).2.2,
      (filling_laws a b).1, .inr ⟨3, _, rfl, rfl, rfl⟩, rfl, rfl, rfl⟩,
    by decide, by decide, by decide, by decide⟩

/-- A page with a double-read field, whose first read may be held. -/
def confirming (confirm : Option ConfirmRecord) (e : EntryItems) : State :=
  { keyed 4 false [] { e with doubleRead := true } with
    scan := { buffer := none, confirm := confirm, window := confirm.map fun _ => 1500, receiving := none, answers := [] } }

/-- The laws of a page with a double-read field of each class. -/
theorem confirming_laws (confirm : Option ConfirmRecord) (cls : FieldClass) :
    (confirming confirm (items cls)).frameFree ∧ (confirming confirm (items cls)).editing 0 ∧
      ((confirming confirm (items cls)).page 0).FieldLaw ∧ ((confirming confirm (items cls)).page 0).ChainLaw ∧
      ((confirming confirm (items cls)).page 0).cells.wf ∧
      entryField 7 4 3 { items cls with doubleRead := true } ∈ ((confirming confirm (items cls)).page 0).fields ∧
      ((confirming confirm (items cls)).page 0).ReadGoesTo (entryField 7 4 3 { items cls with doubleRead := true }) := by
  cases cls <;>
  exact ⟨⟨rfl, rfl⟩, ⟨rfl, rfl, rfl, rfl⟩,
    fieldLaw_of_lists ((keyed 4 false [] _).page 0) (by decide) (by decide) (by decide) (by decide) (by decide) (by decide)
      (by decide),
    chainLaw_of_none _ rfl rfl, wf_nil, List.mem_singleton.mpr rfl,
    .inl ⟨rfl, rfl⟩⟩

/-- What the record of the confirming read of `filling` holds: page 0, a chain's member in which the cursor does not stand. -/
def noted : ConfirmRecord := { characters := [0x41#8], page := 0, field := 20 }

/-- None held; the first read held; another read held; and a record of a chain's member other than its next. -/
theorem witness_ConfirmReadNeedsTwoReads :
    (confirming none (items .digits)).scan.confirm = none ∧
    (let r : ConfirmRecord := { characters := [0x31#8], page := 0, field := 7 };
      (confirming (some r) (items .code)).scan.confirm = some r ∧ r.characters ≠ [0x61#8] ∧ r.characters = [0x31#8] ∧
        (entryField 7 4 3 { items .code with doubleRead := true }).number = r.field) ∧
    ((items .code).source ≠ .key ∧ ({ items .code with doubleRead := true } : EntryItems).doubleRead = true) ∧
    (entryField 7 4 3 { items .code with doubleRead := true }).Fits { items .code with doubleRead := true } [0x61#8]
      [0x41#8] [0x41#8, 0x00#8, 0x00#8] ∧
    (entryField 20 650 6).Fits (items .alpha) noted.characters [0x41#8] [0x41#8, 0x00#8, 0x00#8, 0x00#8, 0x00#8, 0x00#8] ∧
    let s : State := { filling .attn true with scan := { (filling .attn true).scan with confirm := some noted } }
    s.frameFree ∧ s.editing 0 ∧ entryField 20 650 6 ∈ (s.page 0).fields ∧
      after (.scanFrame 1#8 [0x41#8]) s (fun t => ((t.page 0).chains[3].map (·.index), t.scan.confirm, t.reports.queue)) =
        some (some 1, none, [.attention 0 (.chain 3) 0#8]) :=
  ⟨rfl, by decide, by decide,
    ⟨by decide, .cons (.inr (.inl (by decide))) .nil, by decide⟩,
    ⟨by decide, .cons (.inl (by decide)) .nil, by decide⟩,
    ⟨rfl, rfl⟩, ⟨rfl, rfl, rfl, rfl⟩, by decide, by decide⟩

theorem witness_ScanAnswersAreTakenInOrder : quiet.scan.answers = [] ∧
    ({ quiet with scan := { quiet.scan with answers := [0x06#8] } } : State).scan.answers = 0x06#8 :: [] := by decide

/-- Rows 23, 24 and 25; a shown field, a hidden one and none; each state word; a host mark under the cursor. -/
theorem witness_DisplayAnswers :
    (24 < (25#8 : Byte).toNat ∧ quiet.active = none ∧ (23#8 : Byte).toNat < 24 ∧ (24#8 : Byte).toNat = 24) ∧
    ((keyed 0 false).active = some 0 ∧ (∃ f, ((keyed 0 false).page 0).fieldAt (0 * 80 + 6) = some f ∧
      f.intensity ≠ .hidden) ∧ ((keyed 0 false).page 0).fieldAt (0 * 80 + 79) = none) ∧
    (∃ f, ((desk (form [{ protectedField 1 1919 1 with intensity := .hidden }])).page 0).fieldAt (23 * 80 + 79) = some f ∧
      f.intensity = .hidden) ∧
    ((desk (form [])).active = some 0 ∧ (desk (form [])).ready.length < 10 ∧
      ((desk (form [])).page 0).message.length ≤ 56) ∧
    (typedAhead.inhibited = true ∧ ((desk { form [] with hold := some .eOver }).page 0).hold ≠ none ∧
      ((keyed 4 true).page 0).insert = true) ∧
    let s := keyed 4 false [] { items .alpha with hostMark := some 7 }
    (s.page 0).notice = none ∧ (((s.page 0).entryAt (s.page 0).cursor).bind (·.entry)).bind (·.hostMark) = some 7 :=
  ⟨by decide, ⟨by decide, ⟨_, rfl, by decide⟩, by decide⟩, ⟨_, rfl, by decide⟩, by decide⟩

/-! ### Expiries, attempts and checks -/

/-- Page 5 AWAITING with its timer at its end. -/
def overdue (s : State := quiet) : State := s.setPage 5 { Page.blank with state := .awaiting, timer := .remaining 0 }

/-- Each expiry, and steps on an empty queue: nothing due, one expiry due, two due. -/
theorem witness_TimerExpiries :
    ((quiet.page 5).state ≠ .awaiting ∧ quiet.scan.confirm = none) ∧
    ((overdue (desk (form []))).active = some 0 ∧ ((overdue (desk (form []))).page 5).state = .awaiting ∧
      ((overdue (desk (form []))).page 5).inFlight = false ∧
      ((overdue (desk (form []))).page 5).timer = .remaining 0) ∧
    (overdue.active = none ∧ overdue.ready = [] ∧ overdue.scan.buffer = none ∧ (overdue.page 5).state = .awaiting ∧
      (overdue.page 5).inFlight = false ∧ (overdue.page 5).timer = .remaining 0) ∧
    (let r : ConfirmRecord := { characters := [0x41#8], page := 0, field := 7 };
      (confirming (some r) (items .alpha)).scan.confirm = some r ∧ ((confirming (some r) (items .alpha)).page r.page).hold = none) ∧
    (let r : ConfirmRecord := { characters := [0x41#8], page := 0, field := 7 }
    let s : State := { (desk { form [] with hold := some .eOver }) with scan := (confirming (some r) (items .alpha)).scan }
    s.scan.confirm = some r ∧ (s.page r.page).hold ≠ none) ∧
    (let s := quiet.setPage 5 { Page.blank with state := .awaiting, timer := .remaining 1 };
      s.pending = [] ∧ (∀ q : PageNum, (s.page q).timer ≠ .remaining 0) ∧ s.scan.window = none ∧
        s.store.unit.window = none) ∧
    (overdue.pending = [] ∧ (∀ q : PageNum, q ≠ 5 → (overdue.page q).timer ≠ .remaining 0) ∧
      overdue.scan.window = none ∧ overdue.store.unit.window = none) ∧
    let s := overdue (overdue.setPage 4 (overdue.page 5))
    s.pending = [] ∧ (s.page 4).timer = .remaining 0 ∧ (s.page 5).timer = .remaining 0 ∧
      Instr.replyTimerExpiry 4 ≠ Instr.replyTimerExpiry 5 := by decide

/-- Slot 23 is in work, with so many attempts made; slot 9 may be queued. -/
def working (state : UnitState) (attempts : Nat) (nine : SlotState) : State :=
  withSlot 23 .erasing (withSlot 9 nine (withUnit state (some 23) attempts))

/-- No slot but those named is queued. -/
theorem not_queued {state : SlotState} (h : state.isQueued = false) (k : KeptState) : state ≠ .queued k := by
  rintro rfl; simp [SlotState.isQueued] at h

theorem witness_EraseUnitEvents :
    (let s := withSlot 23 (.queued .filled) (withUnit .gathering none 0);
      s.store.unit.state = .gathering ∧ (s.slot 23).state = .queued .filled ∧
        ∀ j : SlotNum, j < 23 → ∀ k, (s.slot j).state ≠ .queued k) ∧
    (let s := working .erasing 2 .blank;
      s.store.unit.work = some 23 ∧ s.store.unit.state = .erasing ∧ s.store.unit.attempts < 3 ∧
        (∀ j : SlotNum, j ≠ 23 → ∀ k, (s.slot j).state ≠ .queued k) ∧ s.reports.queue.length < 8 ∧
        8 ≤ (full s).reports.queue.length ∧
        ((s.store.unit.result ++ [((23 : SlotNum), EraseOutcome.blank)]).map fun q => q.1).Nodup) ∧
    (let s := working .erasing 3 (.queued .blank);
      s.store.unit.attempts = 3 ∧ (s.slot 9).state = .queued .blank ∧ (9 : SlotNum) ≠ 23 ∧
        ∀ j : SlotNum, j < 9 → j ≠ 23 → ∀ k, (s.slot j).state ≠ .queued k) ∧
    (let s := working .pausing 2 (.queued .blank);
      s.store.unit.work = some 23 ∧ s.store.unit.state = .pausing ∧ (s.slot 23).state = .erasing ∧
        s.store.unit.attempts < 3 ∧ (s.slot 9).state = .queued .blank) ∧
    (let s := working .pausing 3 .blank;
      s.store.unit.state = .pausing ∧ s.store.unit.attempts = 3 ∧
        ∀ j : SlotNum, j ≠ 23 → ∀ k, (s.slot j).state ≠ .queued k) ∧
    mergedPairs [(3, .failed), (9, .blank)] [(23, .blank), (3, .blank)] = [(3, .blank), (9, .blank), (23, .blank)] := by
  refine ⟨⟨by decide, by decide, fun j h => not_queued ?_⟩,
    ⟨by decide, by decide, by decide, fun j h => not_queued ?_, by decide⟩,
    ⟨by decide, by decide, by decide, fun j h _ => not_queued ?_⟩, by decide,
    ⟨by decide, by decide, fun j h => not_queued ?_⟩, by decide⟩
  · revert j; decide
  · revert j; decide
  · revert j; decide
  · revert j; decide

theorem witness_CheckDigitTests : (ascii "735002145361") ≠ [] ∧
    (∀ b ∈ ascii "735002145361", 0x30 ≤ b.toNat ∧ b.toNat ≤ 0x39) ∧ (0x37#8 : Byte) ≠ 0x00#8 ∧ (0x37#8 : Byte) ≠ 0x20#8 := by
  decide

theorem witness_NormalisedAmountStands : (amount false).cls = .amount ∧ (amount false).check = .noCheck ∧
    exitCheck (amount false) 8 (ascii "12.5") = .pass (ascii "   12.50") ∧ isEmptyRun (ascii "12.5") = false := by
  decide

end Sys2Proof.Tests
end

/-! # What a page may hold and what an edit of a page leaves

The two laws of Page Control and of the Page Store are kept by every step. An edit of a page is a change that Page Control
does not see; it may write cells, but only codes that R132 allows. -/

namespace Sys2Proof.Machine

/-! ## Cells that hold what R132 allows -/

/-- A code that a page cell may hold: null or printable (R132). -/
def cellCode (b : Byte) : Prop := b = 0x00#8 ∨ printable b = true

/-- The cells are canonical and each listed one holds a printable code (R132). -/
def Cells.Legal (m : Cells) : Prop := m.wf ∧ ∀ c ∈ m, printable c.2 = true

theorem Cells.legal_nil : Cells.Legal [] := ⟨Cells.wf_nil, by simp⟩

/-- A read gives null or a listed code. -/
theorem Cells.read_eq_or_mem (m : Cells) (a : Nat) : m.read a = 0x00#8 ∨ ∃ c ∈ m, c.2 = m.read a := by
  induction m with
  | nil => exact .inl rfl
  | cons c m ih =>
    obtain ⟨k, w⟩ := c
    by_cases h : k = a
    · exact .inr ⟨(k, w), by simp, by simp [Cells.read, h]⟩
    · simp only [Cells.read, if_neg h]
      exact ih.imp_right fun ⟨c, hc, e⟩ => ⟨c, List.mem_cons_of_mem _ hc, e⟩

theorem Cells.Legal.cellCode_read {m : Cells} (h : m.Legal) (a : Nat) : cellCode (m.read a) :=
  (m.read_eq_or_mem a).imp_right fun ⟨c, hc, e⟩ => e ▸ h.2 c hc

theorem Cells.Legal.cellCode_readRun {m : Cells} (h : m.Legal) (a n : Nat) : ∀ b ∈ m.readRun a n, cellCode b := by
  intro b hb
  obtain ⟨i, _, rfl⟩ := List.mem_map.1 hb
  exact h.cellCode_read i

/-- A put lists nothing but its own code, and that only when it is not null. -/
theorem Cells.mem_put {m : Cells} {a : Nat} {v : Byte} {c : Host.Cell} (h : c ∈ m.put a v) :
    c ∈ m ∨ c = (a, v) ∧ v ≠ 0x00#8 := by
  induction m with
  | nil => simp only [Cells.put] at h; split at h <;> simp_all
  | cons d m ih =>
    obtain ⟨k, w⟩ := d
    simp only [Cells.put] at h
    split at h
    · split at h <;> simp_all; tauto
    · split at h
      · split at h <;> simp_all; tauto
      · rcases List.mem_cons.1 h with rfl | h
        · simp
        · exact (ih h).imp_left (List.mem_cons_of_mem _)

theorem Cells.Legal.write {m : Cells} (h : m.Legal) (a : Nat) {v : Byte} (hv : cellCode v) : (m.write a v).Legal := by
  refine ⟨Cells.wf_write a v h.1, fun c hc => ?_⟩
  unfold Cells.write at hc
  split at hc
  · rcases Cells.mem_put hc with hc | ⟨rfl, hne⟩
    · exact h.2 c hc
    · exact hv.resolve_left hne
  · exact h.2 c hc

theorem Cells.Legal.writeRun {m : Cells} (h : m.Legal) (a : Nat) {bs : List Byte} (hb : ∀ b ∈ bs, cellCode b) :
    (m.writeRun a bs).Legal := by
  induction bs generalizing m a with
  | nil => exact h
  | cons b bs ih => exact ih (h.write a (hb b (by simp))) _ fun c hc => hb c (by simp [hc])

theorem Cells.Legal.writeAll {m : Cells} (h : m.Legal) {writes : List (Nat × Byte)}
    (hw : ∀ w ∈ writes, cellCode w.2) : (m.writeAll writes).Legal := by
  unfold Cells.writeAll
  induction writes generalizing m with
  | nil => exact h
  | cons w ws ih => exact ih (h.write w.1 (hw w (by simp))) fun c hc => hw c (by simp [hc])

theorem State.cellLaw_iff {s : State} : s.CellLaw ↔ ∀ p : PageNum, (s.page p).cells.Legal := Iff.rfl

/-! ## The codes that the model writes -/

theorem cellCode_null : cellCode 0x00#8 := .inl rfl

theorem printable_iff {b : Byte} : printable b = true ↔ 0x20 ≤ b.toNat ∧ b.toNat ≤ 0x7E := by simp [printable]

/-- R132: what is outside 20h–7Eh is written as '?'. -/
theorem printable_substituted (b : Byte) : printable (substituted b) = true := by
  unfold substituted
  split
  · assumption
  · decide

theorem printable_of_isDigit {b : Byte} (h : isDigit b = true) : printable b = true := by
  simp only [isDigit, Bool.and_eq_true, decide_eq_true_eq] at h
  rw [printable_iff]; omega

theorem printable_of_isCapital {b : Byte} (h : isCapital b = true) : printable b = true := by
  simp only [isCapital, Bool.and_eq_true, decide_eq_true_eq] at h
  rw [printable_iff]; omega

/-- R29: a small letter folds to a capital. -/
theorem printable_fold {b : Byte} (h : isSmall b = true) : printable (b - 0x20#8) = true := by
  simp only [isSmall, Bool.and_eq_true, decide_eq_true_eq] at h
  rw [printable_iff]
  bv_omega

/-- R29, R56: the typing filter admits printable codes only. -/
theorem printable_of_admitted {cls : FieldClass} {signed : Bool} {b c : Byte} (h : admittedCode cls signed b = some c) :
    printable c = true := by
  cases cls with
  | alpha => simp only [admittedCode] at h; split at h <;> simp_all
  | code =>
    simp only [admittedCode] at h
    split at h
    case isTrue hb =>
      obtain rfl := Option.some.inj h
      simp only [Bool.or_eq_true, beq_iff_eq] at hb
      rcases hb with (hb | hb) | rfl
      · exact printable_of_isDigit hb
      · exact printable_of_isCapital hb
      · decide
    case isFalse =>
      split at h
      case isTrue hs => exact Option.some.inj h ▸ printable_fold hs
      case isFalse => cases h
  | digits =>
    simp only [admittedCode] at h
    split at h
    case isTrue hb => exact Option.some.inj h ▸ printable_of_isDigit hb
    case isFalse => cases h
  | amount =>
    simp only [admittedCode] at h
    split at h
    case isTrue hb =>
      obtain rfl := Option.some.inj h
      simp only [Bool.or_eq_true, Bool.and_eq_true, beq_iff_eq] at hb
      rcases hb with (hb | rfl) | ⟨rfl, -⟩
      · exact printable_of_isDigit hb
      · decide
      · decide
    case isFalse => cases h

/-- R106: a frame's characters fold to printable codes. -/
theorem printable_of_filtered {cls : FieldClass} {signed : Bool} {bs cs : List Byte}
    (h : filtered cls signed bs = some cs) : ∀ c ∈ cs, printable c = true := by
  induction bs generalizing cs with
  | nil => obtain rfl := Option.some.inj h; simp
  | cons b bs ih =>
    simp only [filtered] at h
    split at h
    case h_1 c ds hc hds =>
      obtain rfl := Option.some.inj h
      intro d hd
      rcases List.mem_cons.1 hd with rfl | hd
      · exact printable_of_admitted hc
      · exact ih hds d hd
    case h_2 => cases h

theorem isDigit_digitByte {n : Nat} (h : n < 10) : isDigit (digitByte n) = true := by
  have e : (digitByte n).toNat = 0x30 + n := by
    simp only [digitByte, byteOf, BitVec.toNat_ofNat]; omega
  simp only [isDigit, e, Bool.and_eq_true, decide_eq_true_eq]
  omega

theorem isDigit_decimalDigits (fuel n : Nat) (acc : List Byte) (h : ∀ b ∈ acc, isDigit b = true) :
    ∀ b ∈ decimalDigits fuel n acc, isDigit b = true := by
  induction fuel generalizing n acc with
  | zero => exact h
  | succ fuel ih =>
    simp only [decimalDigits]
    split
    case isTrue hn => exact List.forall_mem_cons.2 ⟨isDigit_digitByte hn, h⟩
    case isFalse => exact ih _ _ (List.forall_mem_cons.2 ⟨isDigit_digitByte (Nat.mod_lt _ (by decide)), h⟩)

theorem isDigit_paddedDecimal (width n : Nat) : ∀ b ∈ paddedDecimal width n, isDigit b = true := by
  induction width generalizing n with
  | zero => simp [paddedDecimal]
  | succ width ih =>
    intro b hb
    rcases List.mem_append.1 hb with hb | hb
    · exact ih _ b hb
    · exact List.mem_singleton.1 hb ▸ isDigit_digitByte (Nat.mod_lt _ (by decide))

/-- R76: the text of an amount is digits and a point. -/
theorem printable_amountText (magnitude scale : Nat) : ∀ b ∈ amountText magnitude scale, printable b = true := by
  intro b hb
  rcases List.mem_append.1 hb with hb | hb
  · exact printable_of_isDigit (isDigit_decimalDigits _ _ [] (by simp) b hb)
  · split at hb
    · simp at hb
    · rcases List.mem_cons.1 hb with rfl | hb
      · decide
      · exact printable_of_isDigit (isDigit_paddedDecimal _ _ b hb)

/-- R77: the sign and the fill of a justified amount are printable. -/
theorem printable_justified {zeroFill negative : Bool} {length : Nat} {text : List Byte}
    (h : ∀ b ∈ text, printable b = true) : ∀ b ∈ justified zeroFill negative length text, printable b = true := by
  intro b hb
  have sign : b ∈ (if negative then [0x2D#8] else [] : List Byte) → printable b = true := by
    split
    · rintro hb; exact List.mem_singleton.1 hb ▸ by decide
    · simp
  simp only [justified] at hb
  split at hb <;> rcases List.mem_append.1 hb with hb | hb
  · rcases List.mem_append.1 hb with hb | hb
    · exact sign hb
    · exact List.eq_of_mem_replicate hb ▸ by decide
  · exact h b hb
  · rcases List.mem_append.1 hb with hb | hb
    · exact List.eq_of_mem_replicate hb ▸ by decide
    · exact sign hb
  · exact h b hb

/-- A stage that fails under a condition passes only without it. -/
theorem CheckResult.pass_of_stage {c : Prop} [Decidable c] {code : ErrorCode} {rest : CheckResult} {out : List Byte}
    (h : (if c then .fail code else rest) = CheckResult.pass out) : ¬c ∧ rest = .pass out := by
  split at h
  · cases h
  · exact ⟨‹_›, h⟩

/-- R77: the AMOUNT stages hand back printable codes. -/
theorem printable_of_amountCheck {e : EntryItems} {length : Nat} {cells out : List Byte}
    (h : amountCheck e length cells = .pass out) : ∀ b ∈ out, printable b = true := by
  unfold amountCheck at h
  split at h
  case h_1 => cases h
  case h_2 parts _ =>
    have passed := (CheckResult.pass_of_stage (CheckResult.pass_of_stage (CheckResult.pass_of_stage h).2).2).2
    obtain rfl := CheckResult.pass.inj passed
    exact printable_justified (printable_amountText _ _)

/-- R70, R77: what a passing exit check hands back are codes it was given, or the codes of a normalised amount. -/
theorem exitCheck_pass_codes {e : EntryItems} {length : Nat} {cells out : List Byte}
    (h : exitCheck e length cells = .pass out) : out = cells ∨ ∀ b ∈ out, printable b = true := by
  unfold exitCheck at h
  split at h
  · exact .inl (CheckResult.pass.inj h).symm
  · simp only at h
    split at h
    case h_1 => cases h
    case h_2 standing classed =>
      obtain rfl := CheckResult.pass.inj (CheckResult.pass_of_stage (CheckResult.pass_of_stage h).2).2
      split at classed
      · exact .inr (printable_of_amountCheck classed)
      · split at classed
        · exact .inl (CheckResult.pass.inj classed).symm
        · cases classed

theorem cellCode_of_exitCheck {e : EntryItems} {length : Nat} {cells out : List Byte}
    (h : exitCheck e length cells = .pass out) (hc : ∀ b ∈ cells, cellCode b) : ∀ b ∈ out, cellCode b := by
  rcases exitCheck_pass_codes h with rfl | hp
  · exact hc
  · exact fun b hb => .inr (hp b hb)

theorem cellCode_of_checkField {g : Page} {f : Field} {out : List Byte} (h : g.checkField f = .pass out)
    (hg : g.cells.Legal) : ∀ b ∈ out, cellCode b := by
  unfold Page.checkField at h
  split at h
  · exact cellCode_of_exitCheck h (hg.cellCode_readRun _ _)
  · exact CheckResult.pass.inj h ▸ hg.cellCode_readRun _ _

/-- R106, R107: the cells of a passing candidate. -/
theorem cellCode_of_candidate {f : Field} {characters out : List Byte} (h : candidateCells f characters = some out) :
    ∀ b ∈ out, cellCode b := by
  unfold candidateCells at h
  split at h
  case h_1 => cases h
  case h_2 e _ =>
    split at h
    · cases h
    · split at h
      case h_1 => cases h
      case h_2 folded hf =>
        split at h
        case h_1 cells hx =>
          obtain rfl := Option.some.inj h
          refine cellCode_of_exitCheck hx fun b hb => ?_
          rcases List.mem_append.1 hb with hb | hb
          · exact .inr (printable_of_filtered hf b hb)
          · exact .inl (List.eq_of_mem_replicate hb)
        case h_2 => cases h

end Sys2Proof.Machine

namespace Sys2Proof.Machine

/-! ## Edits of a page -/

/-- An edit of a page: its state and marks stay, it keeps having a reply timer or none, and its cells go on holding what R132 allows. -/
structure Page.Edited (g h : Page) : Prop where
  state : h.state = g.state
  inFlight : h.inFlight = g.inFlight
  timer : h.timer = .absent ↔ g.timer = .absent
  overdue : h.overdue = g.overdue
  unsent : h.unsent = g.unsent
  cells : g.cells.Legal → h.cells.Legal

theorem Page.Edited.refl (g : Page) : g.Edited g := ⟨rfl, rfl, .rfl, rfl, rfl, id⟩

theorem Page.Edited.trans {g h k : Page} (a : g.Edited h) (b : h.Edited k) : g.Edited k :=
  ⟨b.state.trans a.state, b.inFlight.trans a.inFlight, b.timer.trans a.timer, b.overdue.trans a.overdue,
    b.unsent.trans a.unsent, b.cells ∘ a.cells⟩

section edits

variable (g : Page)

theorem Page.edited_writeRun (a : Nat) {bs : List Byte} (h : g.cells.Legal → ∀ b ∈ bs, cellCode b) :
    g.Edited { g with cells := g.cells.writeRun a bs } :=
  ⟨rfl, rfl, .rfl, rfl, rfl, fun legal => legal.writeRun a (h legal)⟩

theorem Page.edited_updField (n : Nat) (change : Field → Field) : g.Edited (g.updField n change) :=
  ⟨rfl, rfl, .rfl, rfl, rfl, id⟩

theorem Page.edited_updEntry (n : Nat) (change : EntryItems → EntryItems) : g.Edited (g.updEntry n change) :=
  ⟨rfl, rfl, .rfl, rfl, rfl, id⟩

theorem Page.edited_updChain (c : ChainId) (change : Chain → Chain) : g.Edited (g.updChain c change) :=
  ⟨rfl, rfl, .rfl, rfl, rfl, id⟩

theorem Page.edited_selectMember (n : Nat) : g.Edited (g.selectMember n) := by
  unfold Page.selectMember
  split
  · exact ⟨rfl, rfl, .rfl, rfl, rfl, id⟩
  · exact .refl g

theorem Page.edited_enter (n : Nat) : g.Edited (g.enter n) :=
  (g.edited_updEntry n _).trans (Page.edited_selectMember _ n)

theorem Page.edited_cursor (position : Nat) : g.Edited { g with cursor := position } := ⟨rfl, rfl, .rfl, rfl, rfl, id⟩

theorem Page.edited_arrive (position : Nat) : g.Edited (g.arrive position) := by
  unfold Page.arrive
  simp only
  split
  · split
    · exact g.edited_cursor position
    · exact (g.edited_cursor position).trans (Page.edited_enter _ _)
  · exact g.edited_cursor position

theorem Page.edited_writeChecked (f : Field) {cells : List Byte} (h : g.cells.Legal → ∀ b ∈ cells, cellCode b) :
    g.Edited (g.writeChecked f cells) := by
  unfold Page.writeChecked
  split
  · exact g.edited_writeRun f.start h
  · exact .refl g

variable {g}

theorem Page.edited_passExit {f : Field} {cells : List Byte} (h : g.checkField f = .pass cells) :
    g.Edited (g.passExit f cells) :=
  (g.edited_writeChecked f fun legal => cellCode_of_checkField h legal).trans (Page.edited_updEntry _ _ _)

/-- R82: the cells with which a field passes in the walk. -/
theorem cellCode_of_walkTest {f : Field} {cells : List Byte} (h : g.walkTest f = some (.pass cells))
    (legal : g.cells.Legal) : ∀ b ∈ cells, cellCode b := by
  unfold Page.walkTest at h
  split at h
  · cases h
  · split at h
    · cases h
    · split at h
      · exact cellCode_of_checkField (Option.some.inj h) legal
      · split at h
        · exact CheckResult.pass.inj (Option.some.inj h) ▸ legal.cellCode_readRun _ _
        · cases h

theorem Page.edited_failWalk (f : Field) (code : ErrorCode) : g.Edited (g.failWalk f code) := by
  unfold Page.failWalk
  simp only
  split
  · exact g.edited_updEntry _ _
  · exact ((g.edited_updEntry f.number _).trans (Page.edited_cursor _ f.start)).trans (Page.edited_selectMember _ _)

theorem Page.edited_walk (fs : List Field) : g.Edited (g.walk fs).page := by
  induction fs generalizing g with
  | nil => exact .refl g
  | cons f fs ih =>
    simp only [Page.walk]
    split
    · exact ih
    · rename_i cells h
      exact ((g.edited_writeChecked f (cellCode_of_walkTest h)).trans (Page.edited_updEntry _ _ _)).trans ih
    · exact Page.edited_failWalk f _

theorem Page.edited_validateCursorField : g.Edited g.validateCursorField.page := by
  unfold Page.validateCursorField
  split
  · split
    · split
      · exact Page.edited_passExit ‹_›
      · exact g.edited_updEntry _ _
    · exact .refl g
  · exact .refl g

theorem Page.edited_validateSend : g.Edited g.validateSend.page := by
  have first := Page.edited_validateCursorField (g := g)
  unfold Page.validateSend
  split
  · rename_i h
    rw [h] at first
    exact first.trans (Page.edited_walk _)
  · exact first

/-- R59: an edit action writes codes that a cell may hold. -/
theorem Page.edited_editAction (group : List Field) (acting : List Nat) (touch : Nat) {writes : List (Nat × Byte)}
    (h : g.cells.Legal → ∀ w ∈ writes, cellCode w.2) : g.Edited (g.editAction group acting touch writes) :=
  ⟨rfl, rfl, .rfl, rfl, rfl, fun legal => legal.writeAll (h legal)⟩

/-- R57: insert mode writes the character and codes that the group held. -/
theorem cellCode_of_insertWrites {group : List Field} {position : Nat} {b : Byte} {writes : List (Nat × Byte)}
    (h : g.insertWrites group position b = some writes) (hb : cellCode b) (legal : g.cells.Legal) :
    ∀ w ∈ writes, cellCode w.2 := by
  simp only [Page.insertWrites] at h
  split at h
  · obtain rfl := Option.some.inj h
    intro w hw
    rcases List.mem_cons.1 (List.of_mem_zip hw).2 with e | hw
    · exact e ▸ hb
    · obtain ⟨a, _, e⟩ := List.mem_map.1 (List.mem_of_mem_dropLast hw)
      exact e ▸ legal.cellCode_read a
  · cases h

/-- R60: closing up writes codes that the group held, and a null. -/
theorem cellCode_of_deleteWrites (group : List Field) (position : Nat) (legal : g.cells.Legal) :
    ∀ w ∈ g.deleteWrites group position, cellCode w.2 := by
  intro w hw
  simp only [Page.deleteWrites] at hw
  rcases List.mem_append.1 (List.of_mem_zip hw).2 with hw | hw
  · obtain ⟨a, _, e⟩ := List.mem_map.1 (List.mem_of_mem_drop hw)
    exact e ▸ legal.cellCode_read a
  · exact List.mem_singleton.1 hw ▸ cellCode_null

theorem Page.edited_deleteAt (f : Field) : g.Edited (g.deleteAt f) :=
  Page.edited_editAction _ _ _ (cellCode_of_deleteWrites _ _)

theorem cellCode_of_nulls {positions : List Nat} : ∀ w ∈ positions.map fun a => (a, 0x00#8), cellCode w.2 := by
  intro w hw
  obtain ⟨a, _, rfl⟩ := List.mem_map.1 hw
  exact cellCode_null

theorem Page.edited_clearGroup (f : Field) : g.Edited (g.clearGroup f) :=
  (g.edited_arrive _).trans (Page.edited_editAction _ _ _ fun _ => cellCode_of_nulls)

theorem Page.edited_deposit {f : Field} {characters cells : List Byte} (h : candidateCells f characters = some cells) :
    g.Edited { ({ g with cells := g.cells.writeRun f.start cells }.updField f.number (·.deposited)) with notice := none } :=
  (g.edited_writeRun f.start fun _ => cellCode_of_candidate h).trans ⟨rfl, rfl, .rfl, rfl, rfl, id⟩

theorem Page.edited_leaveChain (n : Nat) : g.Edited (g.leaveChain n) := by
  unfold Page.leaveChain
  split
  · exact .refl g
  · exact ⟨rfl, rfl, .rfl, rfl, rfl, id⟩

theorem Page.edited_unlink (n : Nat) : g.Edited (g.unlink n) := ⟨rfl, rfl, .rfl, rfl, rfl, id⟩

theorem Page.edited_dropAll : g.Edited g.dropAll := ⟨rfl, rfl, .rfl, rfl, rfl, id⟩

theorem Page.edited_dropField (n : Nat) : g.Edited (g.dropField n) :=
  ((g.edited_unlink n).trans (Page.edited_leaveChain n)).trans ⟨rfl, rfl, .rfl, rfl, rfl, id⟩

end edits

/-! ## Quiet changes

What Page Control does not see of a change: the queue's entry reports, the page states and the transaction in flight stay. -/

/-- The header of the transaction in flight (R120). -/
def State.flyingHeader (s : State) : Option (List Byte) := s.inFlightTxn.map (·.header)

/-- The entry reports of a page in the report queue (R145). -/
def State.entryCount (s : State) (p : PageNum) : Nat := s.reports.queue.countP (Report.isEntryOf p)

/-- The report is no entry report. -/
def Report.notEntry (r : Report) : Prop := ∀ p, Report.isEntryOf p r = false

/-- A change that edits pages and leaves Page Control as it stands. -/
structure State.Quiet (s t : State) : Prop where
  pages : ∀ p, (s.page p).Edited (t.page p)
  ready : t.ready = s.ready
  active : t.active = s.active
  noPage : t.noPage = s.noPage
  header : t.flyingHeader = s.flyingHeader
  entries : ∀ p, t.entryCount p = s.entryCount p
  stalled : ∀ r, t.interp.stalled = some r → s.interp.stalled = some r ∨ r.notEntry

theorem State.Quiet.refl (s : State) : s.Quiet s := ⟨fun _ => .refl _, rfl, rfl, rfl, rfl, fun _ => rfl, fun _ => .inl⟩

theorem State.Quiet.trans {s t u : State} (a : s.Quiet t) (b : t.Quiet u) : s.Quiet u :=
  ⟨fun p => (a.pages p).trans (b.pages p), b.ready.trans a.ready, b.active.trans a.active, b.noPage.trans a.noPage,
    b.header.trans a.header, fun p => (b.entries p).trans (a.entries p), fun r h => (b.stalled r h).elim (a.stalled r) .inr⟩

/-- A change outside the pages, Page Control, the interpreter and the report queue is quiet. -/
theorem State.Quiet.of_same {s t : State} (pages : t.pages = s.pages) (ready : t.ready = s.ready)
    (active : t.active = s.active) (noPage : t.noPage = s.noPage) (interp : t.interp = s.interp)
    (queue : t.reports.queue = s.reports.queue) : s.Quiet t where
  pages p := by simpa only [State.page, pages] using .refl _
  ready := ready
  active := active
  noPage := noPage
  header := by simp only [State.flyingHeader, State.inFlightTxn, interp]
  entries p := by simp only [State.entryCount, queue]
  stalled r h := .inl (interp ▸ h)

/-- The Key Input Unit and the Scan Unit change quietly. -/
theorem State.quiet_input (s : State) (keys : KeyInput) (scan : ScanUnit) :
    s.Quiet { s with keys := keys, scan := scan } := .of_same rfl rfl rfl rfl rfl rfl

/-- An edit of one page is quiet. -/
theorem State.Quiet.setPage {s : State} {p : PageNum} {g : Page} (h : (s.page p).Edited g) : s.Quiet (s.setPage p g) where
  pages q := by
    rw [State.page_setPage]
    split
    · subst_vars; exact h
    · exact .refl _
  ready := rfl
  active := rfl
  noPage := rfl
  header := rfl
  entries _ := rfl
  stalled _ := .inl

theorem State.Quiet.updPage {s : State} {p : PageNum} {f : Page → Page} (h : (s.page p).Edited (f (s.page p))) :
    s.Quiet (s.updPage p f) := .setPage h

section quiet

variable (s : State) (p : PageNum)

theorem State.quiet_setNotice (n : Option Notice) : s.Quiet (s.setNotice p n) := .updPage ⟨rfl, rfl, .rfl, rfl, rfl, id⟩

theorem State.quiet_dropKeys : s.Quiet s.dropKeys := s.quiet_input _ _

theorem State.quiet_dropConfirm : s.Quiet s.dropConfirm := s.quiet_input _ _

theorem State.quiet_answerScan (a : ScanAnswer) : s.Quiet (s.answerScan a) := s.quiet_input _ _

theorem State.quiet_refuseHeld : s.Quiet s.refuseHeld := by
  unfold State.refuseHeld
  split
  · exact s.quiet_input _ _
  · exact .refl s

theorem State.quiet_enterHold (code : ErrorCode) : s.Quiet (s.enterHold p code) :=
  .trans (.updPage ⟨rfl, rfl, .rfl, rfl, rfl, id⟩) (State.quiet_dropKeys _)

variable {s}

/-- A report that is no entry report joins the queue quietly. -/
theorem State.quiet_queueReport {r : Report} (h : r.notEntry) : s.Quiet (s.queueReport r) :=
  ⟨fun _ => .refl _, rfl, rfl, rfl, rfl,
    fun p => by simp [State.entryCount, List.countP_append, h p], fun _ => .inl⟩

theorem Report.notEntry_attention (p : PageNum) (c : Cause) (serial : Byte) : (Report.attention p c serial).notEntry :=
  fun _ => rfl
theorem Report.notEntry_completion (tag : Byte) (status : Status) (detail : Nat) :
    (Report.completion tag status detail).notEntry := fun _ => rfl
theorem Report.notEntry_eraseDone (pairs : List (SlotNum × EraseOutcome)) : (Report.eraseDone pairs).notEntry :=
  fun _ => rfl
theorem Report.notEntry_status (body : StatusReport) : (Report.status body).notEntry := fun _ => rfl

/-- R130: an answer is no entry report, queued or stalled. -/
theorem State.quiet_answer {r : Report} (h : r.notEntry) : s.Quiet (s.answer r) := by
  unfold State.answer
  split
  · exact ⟨fun _ => .refl _, rfl, rfl, rfl, rfl, fun _ => rfl, fun _ e => .inr (Option.some.inj e ▸ h)⟩
  · exact State.quiet_queueReport h

variable (s)

theorem State.quiet_raiseAttention (cause : Cause) : s.Quiet (s.raiseAttention p cause) := by
  unfold State.raiseAttention
  split
  · exact .updPage ⟨rfl, rfl, .rfl, rfl, rfl, id⟩
  · exact State.quiet_queueReport (Report.notEntry_attention _ _ _)

theorem State.quiet_handResult (result : List (SlotNum × EraseOutcome)) : s.Quiet (s.handResult result) := by
  unfold State.handResult
  split
  · exact .of_same rfl rfl rfl rfl rfl rfl
  · exact State.quiet_queueReport (Report.notEntry_eraseDone _)

theorem State.inFlightTxn_updTxn (f : Transaction → Transaction) :
    (s.updTxn f).inFlightTxn = s.inFlightTxn.map f := by
  by_cases h : s.interp.state = .orders <;> simp [State.inFlightTxn, h]

/-- A change of the transaction record that keeps its header is quiet. -/
theorem State.quiet_updTxn {f : Transaction → Transaction} (h : ∀ t, (f t).header = t.header) :
    s.Quiet (s.updTxn f) where
  pages _ := .refl _
  ready := rfl
  active := rfl
  noPage := rfl
  header := by simp [State.flyingHeader, State.inFlightTxn_updTxn, Function.comp_def, h]
  entries _ := rfl
  stalled _ := .inl

end quiet

end Sys2Proof.Machine

namespace Sys2Proof.Machine

/-! ## What keys and scans do

A key, a scan and the release of held input edit pages quietly, refuse a key without a page, send the active page or park
it; nothing else. -/

/-- One event of the operator's side. -/
inductive State.KeyEvent : State → State → Prop
  | quiet {s t : State} (h : s.Quiet t) : KeyEvent s t
  | noForm {s : State} (h : s.active = none) (n : Option NoPageNotice) : KeyEvent s { s with noPage := n }
  | send {s : State} {p : PageNum} (h : s.active = some p) (id : Nat) : KeyEvent s (s.acceptSend p id)
  | park {s : State} {p : PageNum} (h : s.active = some p) : KeyEvent s (s.parkKey p)

/-- Events of the operator's side one after another. -/
abbrev State.Keyed : State → State → Prop := Relation.ReflTransGen State.KeyEvent

theorem State.Quiet.keyed {s t : State} (h : s.Quiet t) : s.Keyed t := .single (.quiet h)

/-! ### Editing -/

section editing

variable {s : State} {p : PageNum}

theorem State.keyed_send (id : Nat) (h : s.active = some p) : s.Keyed (s.send p id) := by
  have valid : s.Quiet (s.setPage p (s.page p).validateSend.page) := .setPage Page.edited_validateSend
  unfold State.send
  simp only
  split
  · exact (valid.trans (State.quiet_enterHold _ _ _)).keyed
  · split
    · exact (valid.trans (State.quiet_setNotice _ _ _)).keyed
    · exact valid.keyed.tail (.send (by simpa using h) id)

theorem State.keyed_exitOption (f : Field) (h : s.active = some p) : s.Keyed (s.exitOption p f) := by
  unfold State.exitOption
  split
  · exact .refl
  · split
    · exact .refl
    · exact (State.quiet_raiseAttention _ _ _).keyed
    · exact State.keyed_send 14 h

theorem State.keyed_moveCursor (position : Nat) (continuation : Bool) (h : s.active = some p) :
    s.Keyed (s.moveCursor p position continuation) := by
  unfold State.moveCursor
  simp only
  split
  · split
    · split
      · rename_i passed
        exact (State.Quiet.setPage ((Page.edited_passExit passed).trans (Page.edited_arrive _ _))).keyed.trans
          (State.keyed_exitOption _ h)
      · exact (State.Quiet.trans (.setPage (Page.edited_updEntry _ _ _)) (State.quiet_enterHold _ _ _)).keyed
    · exact (State.Quiet.setPage (Page.edited_arrive _ _)).keyed
  · exact (State.Quiet.setPage (Page.edited_arrive _ _)).keyed

theorem State.keyed_advance (f : Field) (h : s.active = some p) : s.Keyed (s.advance p f) := by
  unfold State.advance
  simp only
  split
  · exact State.keyed_moveCursor _ _ h
  · split
    · exact State.keyed_moveCursor _ _ h
    · split <;> exact State.keyed_moveCursor _ _ h

/-- R57: the writes of a typed character, in either mode. -/
theorem cellCode_of_typed {g : Page} {group : List Field} {c : Byte} {writes : List (Nat × Byte)}
    (h : (if g.insert then g.insertWrites group g.cursor c else some [(g.cursor, c)]) = some writes)
    (hc : printable c = true) (legal : g.cells.Legal) : ∀ w ∈ writes, cellCode w.2 := by
  split at h
  · exact cellCode_of_insertWrites h (.inr hc) legal
  · obtain rfl := Option.some.inj h
    exact List.forall_mem_singleton.2 (.inr hc)

theorem State.keyed_typeCharacter (b : Byte) (h : s.active = some p) : s.Keyed (s.typeCharacter p b) := by
  unfold State.typeCharacter
  simp only
  split
  · exact (State.quiet_enterHold _ _ _).keyed
  · split
    · exact (State.quiet_enterHold _ _ _).keyed
    · split
      · exact (State.quiet_enterHold _ _ _).keyed
      · rename_i c admitted
        obtain ⟨e, _, hc⟩ := Option.bind_eq_some_iff.1 admitted
        split
        · exact (State.quiet_enterHold _ _ _).keyed
        · rename_i writes written
          exact (State.Quiet.setPage (Page.edited_editAction _ _ _
            (cellCode_of_typed written (printable_of_admitted hc)))).keyed.trans (State.keyed_advance _ h)

theorem State.quiet_deleteKey : s.Quiet (s.deleteKey p) := by
  unfold State.deleteKey
  simp only
  split
  · exact State.quiet_enterHold _ _ _
  · exact .setPage (Page.edited_deleteAt _)

theorem State.keyed_backspaceKey (h : s.active = some p) : s.Keyed (s.backspaceKey p) := by
  unfold State.backspaceKey
  simp only
  split
  · exact (State.quiet_enterHold _ _ _).keyed
  · exact (State.keyed_moveCursor _ _ h).trans State.quiet_deleteKey.keyed

theorem State.quiet_eraseEofKey : s.Quiet (s.eraseEofKey p) := by
  unfold State.eraseEofKey
  simp only
  split
  · exact State.quiet_enterHold _ _ _
  · exact .setPage (Page.edited_editAction _ _ _ fun _ => cellCode_of_nulls)

theorem State.quiet_clearFieldKey : s.Quiet (s.clearFieldKey p) := by
  unfold State.clearFieldKey
  simp only
  split
  · exact State.quiet_enterHold _ _ _
  · exact .setPage (Page.edited_clearGroup _)

theorem State.quiet_flipInsert : s.Quiet (s.updPage p fun g => { g with insert := !g.insert }) :=
  .updPage ⟨rfl, rfl, .rfl, rfl, rfl, id⟩

theorem State.keyed_actKey (k : Key) (h : s.active = some p) : s.Keyed (s.actKey p k) := by
  cases k with
  | left | right | up | down | tab | backtab | home | newline => exact State.keyed_moveCursor _ _ h
  | insert => exact State.quiet_flipInsert.keyed
  | delete => exact State.quiet_deleteKey.keyed
  | backspace => exact State.keyed_backspaceKey h
  | eraseEof => exact State.quiet_eraseEofKey.keyed
  | clearField => exact State.quiet_clearFieldKey.keyed
  | reset => exact .refl
  | attn => exact (State.quiet_raiseAttention _ _ _).keyed
  | park => exact .single (.park h)
  | send id => exact State.keyed_send id h
  | character b => exact State.keyed_typeCharacter b h
  | unknown => exact (State.quiet_setNotice _ _ _).keyed

theorem State.keyed_editKey (s : State) (k : Key) : s.Keyed (s.editKey k) := by
  unfold State.editKey
  split
  · rename_i h
    split
    · exact .refl
    · exact .single (.noForm h _)
    · exact .single (.noForm h _)
  · rename_i p h
    split
    · split
      · exact State.Quiet.keyed (.updPage ⟨rfl, rfl, .rfl, rfl, rfl, id⟩)
      · exact .refl
    · exact (State.quiet_setNotice s p none).keyed.trans (State.keyed_actKey k h)

end editing

/-! ### Scans -/

section scans

variable {s : State} {p : PageNum}

theorem State.keyed_chainAction (c : ChainId) (action : Action) (h : s.active = some p) :
    s.Keyed (s.chainAction p c action) := by
  cases action with
  | nothing => exact .refl
  | attn => exact (State.quiet_raiseAttention _ _ _).keyed
  | send => exact State.keyed_send 13 h

theorem State.keyed_stepChain (c : ChainId) (k : Nat) (h : s.active = some p) : s.Keyed (s.stepChain p c k) := by
  have stepped : s.Quiet (s.updPage p fun g => g.updChain c (·.stepped k)) := .updPage (Page.edited_updChain _ _ _)
  unfold State.stepChain
  simp only
  split
  · split
    · exact (stepped.keyed.trans (State.keyed_chainAction _ _ h)).trans
        (State.Quiet.updPage (Page.edited_updChain _ _ _)).keyed
    · exact stepped.keyed
  · exact stepped.keyed

theorem State.keyed_followMove (s : State) (p : PageNum) (f : Field) : s.Keyed (s.followMove p f) := by
  unfold State.followMove
  split
  · exact State.keyed_moveCursor _ _ (And.left ‹_›)
  · exact .refl

theorem State.keyed_deposit {f : Field} {characters cells : List Byte} (h : s.active = some p)
    (candidate : candidateCells f characters = some cells) : s.Keyed (s.deposit p f cells) := by
  have deposited := (State.Quiet.setPage (Page.edited_deposit (g := s.page p) candidate)).trans
    (State.quiet_answerScan _ .ack)
  unfold State.deposit
  simp only
  split
  · exact deposited.keyed
  · split
    · exact (deposited.keyed.trans (State.keyed_stepChain _ _ h)).trans (State.keyed_followMove _ _ _)
    · exact deposited.keyed.trans (State.keyed_stepChain _ _ h)

theorem State.quiet_rejectScan (s : State) (p : PageNum) : s.Quiet (s.rejectScan p) :=
  (State.quiet_answerScan s _).trans (State.quiet_setNotice _ _ _)

theorem State.quiet_awaitConfirm (s : State) (p : PageNum) (f : Field) (characters : List Byte) :
    s.Quiet (s.awaitConfirm p f characters) :=
  (s.quiet_input s.keys _).trans ((State.quiet_answerScan _ .ack).trans (State.quiet_setNotice _ p _))

theorem State.keyed_takeRead (f : Field) (confirming : Bool) (characters : List Byte) (h : s.active = some p) :
    s.Keyed (s.takeRead p f confirming characters) := by
  unfold State.takeRead
  split
  · exact (State.quiet_rejectScan s p).keyed
  · split
    · exact (State.quiet_awaitConfirm s p f characters).keyed
    · exact State.keyed_deposit h ‹_›

theorem State.keyed_routeByPage (characters : List Byte) (h : s.active = some p) :
    s.Keyed (s.routeByPage p characters) := by
  unfold State.routeByPage
  split
  · exact State.keyed_takeRead _ _ _ h
  · exact (State.quiet_rejectScan s p).keyed

theorem State.keyed_routeFrame (characters : List Byte) (h : s.active = some p) :
    s.Keyed (s.routeFrame p characters) := by
  have dropped : s.Keyed s.dropConfirm := (State.quiet_dropConfirm s).keyed
  unfold State.routeFrame
  split
  · split
    · split
      · exact dropped.trans (State.keyed_takeRead _ _ _ h)
      · exact dropped.trans (State.quiet_rejectScan _ p).keyed
    · exact dropped.trans (State.keyed_routeByPage _ h)
  · exact State.keyed_routeByPage _ h

theorem State.keyed_judgeFrame (s : State) (length : Nat) (characters : List Byte) :
    s.Keyed (s.judgeFrame length characters) := by
  unfold State.judgeFrame
  split
  · have answered := State.quiet_answerScan s .nakReject
    simp only
    split
    · split
      · exact (answered.trans (State.quiet_setNotice _ _ _)).keyed
      · exact answered.keyed
    · exact answered.keyed
  · split
    · exact (State.quiet_answerScan s _).keyed
    · split
      · exact (State.quiet_answerScan s _).keyed
      · split
        · split
          · exact (s.quiet_input _ _).keyed
          · exact (State.quiet_answerScan s _).keyed
        · exact State.keyed_routeFrame _ ‹_›

end scans

/-! ### The input port and held input -/

theorem State.quiet_queueKey (s : State) (p : PageNum) (code : Byte) : s.Quiet (s.queueKey p code) := by
  unfold State.queueKey
  split
  · exact State.quiet_setNotice _ _ _
  · split
    · exact .of_same rfl rfl rfl rfl rfl rfl
    · exact State.quiet_setNotice _ _ _

theorem State.keyed_takeKey (s : State) (code : Byte) : s.Keyed (s.takeKey code) := by
  unfold State.takeKey
  split
  · exact State.keyed_editKey s _
  · split
    · split
      · exact (State.quiet_dropKeys s).keyed.trans (State.keyed_editKey _ _)
      · exact State.keyed_editKey s _
      · split
        · exact State.keyed_editKey s _
        · exact (State.quiet_queueKey _ _ _).keyed
    · exact State.keyed_editKey s _

theorem State.keyed_takeInputByte (s : State) (b : Byte) : s.Keyed (s.takeInputByte b) := by
  unfold State.takeInputByte
  split
  · split
    · exact (s.quiet_input _ _).keyed
    · exact State.keyed_takeKey s b
  · split
    · exact .trans (s.quiet_input _ _).keyed (State.keyed_judgeFrame _ _ _)
    · exact (s.quiet_input _ _).keyed
  · simp only
    split
    · exact .trans (s.quiet_input _ _).keyed (State.keyed_judgeFrame _ _ _)
    · exact (s.quiet_input _ _).keyed

theorem State.keyed_takeInput (s : State) (codes : List Byte) : s.Keyed (s.takeInput codes) := by
  unfold State.takeInput
  induction codes generalizing s with
  | nil => exact .refl
  | cons b bs ih => exact (State.keyed_takeInputByte s b).trans (ih _)

theorem State.keyed_releaseKeys (n : Nat) (s : State) : s.Keyed (State.releaseKeys n s) := by
  induction n generalizing s with
  | zero => exact .refl
  | succ n ih =>
    unfold State.releaseKeys
    split
    · exact .refl
    · exact .trans (s.quiet_input _ _).keyed (.trans (State.keyed_editKey _ _) (ih _))

theorem State.keyed_releaseScan (s : State) : s.Keyed s.releaseScan := by
  unfold State.releaseScan
  split
  · rename_i h _
    exact .trans (s.quiet_input _ _).keyed (State.keyed_routeFrame _ (by exact h))
  · exact .refl

/-- R95: the release of held input is events of the operator's side. -/
theorem State.keyed_releaseInput (s : State) : s.Keyed s.releaseInput :=
  s.keyed_releaseScan.trans (State.keyed_releaseKeys _ _)

/-! ### What the operator's side leaves of the stream side -/

theorem State.flyingHeader_congr {s t : State} (h : t.interp = s.interp) : t.flyingHeader = s.flyingHeader := by
  simp only [State.flyingHeader, State.inFlightTxn, h]

@[simp] theorem State.refuseHeld_interp (s : State) : s.refuseHeld.interp = s.interp := by
  unfold State.refuseHeld; split <;> rfl

@[simp] theorem State.promote_interp (s : State) : s.promote.interp = s.interp := by
  unfold State.promote; split <;> simp

@[simp] theorem State.parkKey_interp (s : State) (p : PageNum) : (s.parkKey p).interp = s.interp := by
  unfold State.parkKey; split <;> simp [State.leaveActive]

/-- No event of the operator's side touches the transaction in flight. -/
theorem State.KeyEvent.header {s t : State} (h : s.KeyEvent t) : t.flyingHeader = s.flyingHeader := by
  cases h with
  | quiet h => exact h.header
  | noForm => rfl
  | send => exact State.flyingHeader_congr (by simp [State.acceptSend, State.leaveActive])
  | park => exact State.flyingHeader_congr (by simp)

theorem State.Keyed.header {s t : State} (h : s.Keyed t) : t.flyingHeader = s.flyingHeader := by
  induction h with
  | refl => rfl
  | tail _ e ih => exact e.header.trans ih

end Sys2Proof.Machine

namespace Sys2Proof.Machine

/-! ## Orders

Every order of a transaction is quiet, whatever it comes to. -/

/-- The state that an order leaves. -/
def OrderOutcome.state : OrderOutcome → State
  | .done s => s
  | .skipped s => s
  | .failed _ s => s

theorem State.Quiet.done {s t : State} (h : s.Quiet t) : s.Quiet (OrderOutcome.done t).state := h

theorem State.Quiet.skipped {s t : State} (h : s.Quiet t) : s.Quiet (OrderOutcome.skipped t).state := h

section orders

variable (s : State) (p : PageNum)

theorem State.quiet_setWritePos (n : Nat) : s.Quiet (s.setWritePos n) := s.quiet_updTxn fun _ => rfl

theorem State.quiet_skipOrder : s.Quiet s.skipOrder := s.quiet_updTxn fun _ => rfl

theorem State.quiet_clearOrder : s.Quiet (s.updTxn fun r => { r with order := [] }) := s.quiet_updTxn fun _ => rfl

theorem State.quiet_writeText (kind : Kind) (writePos : Nat) {codes : List Byte} (h : ∀ b ∈ codes, cellCode b) :
    s.Quiet (s.writeText kind p writePos codes).state := by
  unfold State.writeText
  simp only
  split
  · exact s.quiet_setWritePos _
  · exact .done (.trans (.setPage (Page.edited_writeRun _ _ fun _ => h)) (State.quiet_setWritePos _ _))

theorem State.quiet_dropConfirmAt (dropped : Nat → Bool) : s.Quiet (s.dropConfirmAt p dropped) := by
  unfold State.dropConfirmAt
  split
  · split
    · exact s.quiet_dropConfirm
    · exact .refl s
  · exact .refl s

theorem State.quiet_orderDefine (writePos : Nat) (d : DefineOperands) : s.Quiet (s.orderDefine p writePos d).state := by
  unfold State.orderDefine
  split
  · exact .refl s
  · split
    · exact .refl s
    · split
      · exact .refl s
      · exact .done (.updPage ⟨rfl, rfl, .rfl, rfl, rfl, id⟩)

theorem State.quiet_orderDrop (operand : Byte) : s.Quiet (s.orderDrop p operand).state := by
  unfold State.orderDrop
  split
  · exact .done (.trans (.setPage Page.edited_dropAll) (State.quiet_dropConfirmAt _ p _))
  · simp only
    split
    · exact .refl s
    · exact .done (.trans (.setPage (Page.edited_dropField _)) (State.quiet_dropConfirmAt _ p _))

theorem State.quiet_orderMark (operand code : Byte) : s.Quiet (s.orderMark p operand code).state := by
  unfold State.orderMark
  split
  · exact .refl s
  · split
    · split
      · exact .done (.updPage (Page.edited_updEntry _ _ _))
      · exact .refl s
    · exact .refl s

theorem State.quiet_orderUnmodify (operand : Byte) : s.Quiet (s.orderUnmodify p operand).state := by
  unfold State.orderUnmodify
  split
  · exact .done (.updPage ⟨rfl, rfl, .rfl, rfl, rfl, id⟩)
  · split
    · exact .done (.updPage (Page.edited_updField _ _ _))
    · exact .refl s

theorem State.quiet_orderChain (operands : List Byte) : s.Quiet (s.orderChain p operands).state := by
  unfold State.orderChain
  split
  · exact .refl s
  · simp only
    split
    · exact .done (.updPage ⟨rfl, rfl, .rfl, rfl, rfl, id⟩)
    · exact .refl s

theorem State.quiet_orderUnchain (operand : Byte) : s.Quiet (s.orderUnchain p operand).state := by
  unfold State.orderUnchain
  split
  · exact .refl s
  · split
    · exact .refl s
    · exact .done (.updPage ⟨rfl, rfl, .rfl, rfl, rfl, id⟩)

theorem State.quiet_orderSelect (operand : Byte) : s.Quiet (s.orderSelect p operand).state := by
  unfold State.orderSelect
  split
  · exact .done (.updPage ⟨rfl, rfl, .rfl, rfl, rfl, id⟩)
  · split
    · exact .refl s
    · split
      · exact .refl s
      · exact .done (.updPage ⟨rfl, rfl, .rfl, rfl, rfl, id⟩)

theorem cellCode_of_substituted {bytes : List Byte} : ∀ b ∈ bytes.map substituted, cellCode b := by
  intro b hb
  obtain ⟨c, _, rfl⟩ := List.mem_map.1 hb
  exact .inr (printable_substituted c)

theorem State.quiet_pageOrder (kind : Kind) (writePos : Nat) (o : OrderCode) (operands : List Byte) :
    s.Quiet (s.pageOrder kind p writePos o operands).state := by
  unfold State.pageOrder
  simp only
  split
  case h_1 =>
    split
    · exact s.quiet_setWritePos _
    · exact .refl s
  case h_2 => exact s.quiet_writeText p kind _ cellCode_of_substituted
  case h_3 =>
    split
    · exact s.quiet_writeText p kind _ fun b hb => List.eq_of_mem_replicate hb ▸ .inr (printable_substituted _)
    · exact .refl s
  case h_4 =>
    split
    · exact s.quiet_writeText p kind _ fun b hb => List.eq_of_mem_replicate hb ▸ cellCode_null
    · exact .refl s
  case h_5 => exact s.quiet_orderDefine p _ _
  case h_6 => exact s.quiet_orderDrop p _
  case h_7 =>
    split
    · exact .done (.updPage (Page.edited_cursor _ _))
    · exact .refl s
  case h_8 => exact .done (.updPage ⟨rfl, rfl, .rfl, rfl, rfl, id⟩)
  case h_9 => exact s.quiet_orderMark p _ _
  case h_10 => exact s.quiet_orderUnmodify p _
  case h_11 => exact s.quiet_orderChain p _
  case h_12 => exact s.quiet_orderUnchain p _
  case h_13 => exact s.quiet_orderSelect p _
  case h_14 => exact .refl s

/-- R166: a replay is quiet, as each of its orders is. -/
theorem State.quiet_replay (orders : List (List Byte)) : s.Quiet (State.replay p s orders).state := by
  induction orders generalizing s with
  | nil => exact .refl s
  | cons order rest ih =>
    cases order with
    | nil => exact ih s
    | cons code operands =>
      unfold State.replay
      split
      · rename_i o t _ _
        have one := s.quiet_pageOrder p .load t.writePos o operands
        split
        · rename_i done
          exact .trans (by rwa [done] at one) (ih _)
        · rename_i skipped
          exact (State.Quiet.trans (by rwa [skipped] at one) (State.quiet_skipOrder _)).trans (ih _)
        · rename_i failed
          rwa [failed] at one
      · exact ih s

theorem State.quiet_orderRecall (index : Nat) (slot : Byte) : s.Quiet (s.orderRecall p index slot).state := by
  unfold State.orderRecall
  split
  · exact .refl s
  · split
    · exact .refl s
    · exact s.quiet_replay p _
    · exact .refl s

theorem State.quiet_updSlot (n : SlotNum) (f : Slot → Slot) : s.Quiet (s.updSlot n f) := .of_same rfl rfl rfl rfl rfl rfl

theorem State.quiet_recordOrder (n : SlotNum) (o : OrderCode) (operands : List Byte) :
    s.Quiet (s.recordOrder n o operands).state := by
  unfold State.recordOrder
  split
  · exact .refl s
  · simp only
    split
    · exact .refl s
    · exact .done (s.quiet_updSlot _ _)

/-- R124: an order carried out or recorded is quiet. -/
theorem State.quiet_carryOut (t : Transaction) (o : OrderCode) (operands : List Byte) :
    s.Quiet (s.carryOut t o operands).state := by
  unfold State.carryOut
  split
  · split
    · exact s.quiet_recordOrder _ _ _
    · exact .refl s
  · split
    · exact s.quiet_orderRecall _ _ _
    · exact s.quiet_pageOrder _ _ _ _ _
  · exact .refl s

end orders

/-! ## The events of a step -/

/-- The close of a transaction without the release of held input: the record goes and the page's mark clears (R126, R127). -/
def State.closed (s : State) (t : Transaction) (next : InterpState) : State :=
  { s with interp.txn := none, interp.state := next }.clearMark t

theorem State.closeTransaction_closed (s : State) (t : Transaction) (next : InterpState) :
    s.closeTransaction t next = if s.inhibited then (s.closed t next).releaseInput else s.closed t next := rfl

/-- END up to the release of held input (R126). -/
def State.ended (s : State) (t : Transaction) : State :=
  ((s.endEffects t).answer ((s.endEffects t).endReport t)).closed t .between

/-- An abort up to the release of held input (R127). -/
def State.aborted (s : State) (t : Transaction) (status : Status) (detail : Nat) (next : InterpState) : State :=
  ((s.abortEffects t).answer (.completion t.tag status detail)).closed t next

/-- A stream reset up to the close of the transaction it cuts short (R157, steps 1 to 4). -/
def State.streamEmptied (s : State) : State := State.handFreedTimes 8 s.cutShort.emptyReports.returnSending

/-- One event of a step, as Page Control sees it: an event of the operator's side, an expiry, a report byte taken, a header
judged, the end of a transaction, or a reset. -/
inductive State.Event : State → State → Prop
  | key {s t : State} (h : s.KeyEvent t) : Event s t
  | replyExpiry (s : State) (p : PageNum) : Event s (s.expireReply p)
  | reportByte (s : State) : Event s s.takeReportByte
  | header {s : State} (h : s.interp.state = .header) (t : Transaction) : Event s (s.judgeHeader t)
  | ended {s : State} {t : Transaction} (h : s.flyingHeader = some t.header) : Event s (s.ended t)
  | aborted {s : State} {t : Transaction} (h : s.flyingHeader = some t.header) (status : Status) (detail : Nat)
      (next : InterpState) : Event s (s.aborted t status detail next)
  | cutShort {s : State} {t : Transaction} (h : s.inFlightTxn = some t) : Event s (s.streamEmptied.closed t .between)
  | emptied {s : State} (h : s.inFlightTxn = none) :
      Event s { s.streamEmptied with interp.txn := none, interp.state := .between }
  | lineReset (s : State) : Event s s.lineReset

/-- Events one after another. -/
abbrev State.Reaches : State → State → Prop := Relation.ReflTransGen State.Event

theorem State.Keyed.reaches {s t : State} (h : s.Keyed t) : s.Reaches t := Relation.ReflTransGen.mono (fun _ _ e => State.Event.key e) s t h

theorem State.Quiet.reaches {s t : State} (h : s.Quiet t) : s.Reaches t := h.keyed.reaches

/-! ### The stream port -/

/-- R95: a close and the release of the input it held back. -/
theorem State.keyed_closeTransaction (s : State) (t : Transaction) (next : InterpState) :
    (s.closed t next).Keyed (s.closeTransaction t next) := by
  rw [State.closeTransaction_closed]
  split
  · exact State.keyed_releaseInput _
  · exact .refl

theorem State.flyingHeader_of_noTxn {s : State} (h : s.interp.txn = none) : s.flyingHeader = none := by
  simp [State.flyingHeader, State.inFlightTxn, h]

@[simp] theorem State.clearMark_interp (s : State) (t : Transaction) : (s.clearMark t).interp = s.interp := by
  unfold State.clearMark; split <;> rfl

theorem State.flyingHeader_closed (s : State) (t : Transaction) (next : InterpState) :
    (s.closed t next).flyingHeader = none := State.flyingHeader_of_noTxn (by simp [State.closed])

theorem State.flyingHeader_closeTransaction (s : State) (t : Transaction) (next : InterpState) :
    (s.closeTransaction t next).flyingHeader = none :=
  (s.keyed_closeTransaction t next).header.trans (s.flyingHeader_closed t next)

section stream

variable {s : State} {t : Transaction}

theorem State.reaches_reachEnd (h : s.flyingHeader = some t.header) : s.Reaches (s.reachEnd t) :=
  .head (.ended h) (State.keyed_closeTransaction _ _ _).reaches

theorem State.reaches_abort (h : s.flyingHeader = some t.header) (status : Status) (detail : Nat) (next : InterpState) :
    s.Reaches (s.abort t status detail next) :=
  .head (.aborted h status detail next) (State.keyed_closeTransaction _ _ _).reaches

/-- A change of the interpreter with no transaction in flight before or after is quiet. -/
theorem State.quiet_interp {i : InterpState} {r : Option Transaction} (h : s.flyingHeader = none)
    (hi : i = .orders → r = none) : s.Quiet { s with interp.state := i, interp.txn := r } where
  pages _ := .refl _
  ready := rfl
  active := rfl
  noPage := rfl
  header := by
    rw [h]
    simp only [State.flyingHeader, State.inFlightTxn, Option.map_eq_none_iff]
    split
    · exact hi ‹_›
    · rfl
  entries _ := rfl
  stalled _ := .inl

theorem State.quiet_openTransaction (h : s.flyingHeader = none) : s.Quiet s.openTransaction :=
  State.quiet_interp h nofun

theorem State.flyingHeader_of_state (h : s.interp.state ≠ .orders) : s.flyingHeader = none := by
  simp [State.flyingHeader, State.inFlightTxn, h]

theorem State.flyingHeader_of_orders (hs : s.interp.state = .orders) (ht : s.interp.txn = some t) :
    s.flyingHeader = some t.header := by
  simp [State.flyingHeader, State.inFlightTxn, hs, ht]

/-- A change of the record in flight that keeps its header is quiet. -/
theorem State.quiet_record {r : Transaction} (hs : s.interp.state = .orders) (ht : s.interp.txn = some t)
    (hr : r.header = t.header) : s.Quiet { s with interp.txn := some r } where
  pages _ := .refl _
  ready := rfl
  active := rfl
  noPage := rfl
  header := by
    rw [State.flyingHeader_of_orders hs ht, ← hr]
    exact State.flyingHeader_of_orders hs rfl
  entries _ := rfl
  stalled _ := .inl

theorem State.reaches_takeHeaderByte (b : Byte) (hs : s.interp.state = .header) :
    s.Reaches (s.takeHeaderByte t b) := by
  unfold State.takeHeaderByte
  simp only
  split
  · exact .single (.header hs _)
  · exact (State.quiet_interp (State.flyingHeader_of_state (by simp [hs])) (by simp [hs])).reaches

/-- R124, R125, R127: what an order of the transaction in flight came to. -/
theorem State.reaches_settleOrder {o : OrderOutcome} (h : s.Quiet o.state) (ht : s.flyingHeader = some t.header) :
    s.Reaches (State.settleOrder t o) := by
  cases o with
  | done u => exact (h.trans (State.quiet_clearOrder _)).reaches
  | skipped u => exact ((h.trans (State.quiet_skipOrder _)).trans (State.quiet_clearOrder _)).reaches
  | failed status u => exact h.reaches.trans (State.reaches_abort (h.header.trans ht) _ _ _)

theorem State.reaches_takeOrderCode (b : Byte) (hs : s.interp.state = .orders) (ht : s.interp.txn = some t) :
    s.Reaches (s.takeOrderCode t b) := by
  have flying : s.flyingHeader = some t.header := State.flyingHeader_of_orders hs ht
  unfold State.takeOrderCode
  split
  · exact State.reaches_reachEnd flying
  · split
    · exact (State.reaches_abort flying _ _ _).trans
        (State.quiet_openTransaction (State.flyingHeader_closeTransaction _ _ _)).reaches
    · simp only
      split
      · split
        · exact State.Quiet.reaches (State.quiet_record hs ht (by rfl))
        · exact State.reaches_abort flying _ _ _
      · exact State.reaches_abort flying _ _ _

theorem State.reaches_takeOperand (b : Byte) (hs : s.interp.state = .orders) (ht : s.interp.txn = some t) :
    s.Reaches (s.takeOperand t b) := by
  have flying : s.flyingHeader = some t.header := State.flyingHeader_of_orders hs ht
  unfold State.takeOperand
  simp only
  split
  · exact .refl
  · split
    · exact State.Quiet.reaches (State.quiet_record hs ht (by rfl))
    · exact State.reaches_abort flying _ _ _
    · exact State.reaches_settleOrder (.trans (State.quiet_record hs ht (by rfl)) (State.quiet_carryOut _ _ _ _)) flying

/-- R121 to R128: a byte that the interpreter takes. -/
theorem State.reaches_interpretByte (s : State) (b : Byte) : s.Reaches (s.interpretByte b) := by
  unfold State.interpretByte
  split
  case h_1 hs =>
    split
    · exact (State.quiet_openTransaction (State.flyingHeader_of_state (by simp [hs]))).reaches
    · exact .refl
  case h_2 hs =>
    have flying : s.flyingHeader = none := State.flyingHeader_of_state (by simp [hs])
    split
    · exact State.Quiet.reaches (State.quiet_interp flying (by nofun))
    · split
      · exact (State.quiet_openTransaction flying).reaches
      · exact .refl
  case h_3 hs ht => exact State.reaches_takeHeaderByte b hs
  case h_4 hs ht =>
    split
    · exact State.reaches_takeOrderCode b hs ht
    · exact State.reaches_takeOperand b hs ht
  case h_5 => exact .refl
  case h_6 => exact .refl

theorem State.reaches_takeStream (s : State) (bytes : List Byte) : s.Reaches (s.takeStream bytes) := by
  induction bytes generalizing s with
  | nil => exact .refl
  | cons b bs ih =>
    rw [State.takeStream_cons]
    refine .trans ?_ (ih _)
    unfold State.takeStreamByte
    split
    · exact .refl
    · exact s.reaches_interpretByte b

end stream

/-! ### Headers -/

@[simp] theorem Transaction.page_skip (t : Transaction) (n : Nat) : (t.skip n).page = t.page := rfl

/-- R122: seven kinds name no page. -/
theorem Transaction.page_of_kind {t : Transaction} {k : Kind} (hk : t.kind = some k) (h : k.namesPage = false) :
    t.page = none := by
  simp [Transaction.page, hk, h]

section headers

variable (s : State) (t : Transaction)

theorem State.quiet_eraseSlot (n : SlotNum) : s.Quiet (s.eraseSlot n).1 := by
  unfold State.eraseSlot
  split
  · exact .refl s
  · split
    · exact .refl s
    · split
      · exact .refl s
      · exact .of_same rfl rfl rfl rfl rfl rfl

theorem State.quiet_eraseSlots (slots : List SlotNum) : s.Quiet (State.eraseSlots s slots).1 := by
  induction slots generalizing s with
  | nil => exact .refl s
  | cons n ns ih => exact (s.quiet_eraseSlot n).trans (ih _)

theorem State.quiet_acceptErase (slots : List Byte) : s.Quiet (s.acceptErase slots).1 := by
  refine .trans (s.quiet_eraseSlots (slots.filterMap slotOfByte)) ?_
  unfold State.acceptErase State.gather
  simp only
  split <;> exact .of_same rfl rfl rfl rfl rfl rfl

theorem State.quiet_pauseUnit {u : State} (h : s.pauseUnit = some u) : s.Quiet u := by
  unfold State.pauseUnit at h
  split at h
  · cases h
  all_goals cases h; exact .of_same rfl rfl rfl rfl rfl rfl

theorem State.quiet_resumeUnit {u : State} (h : s.resumeUnit = some u) : s.Quiet u := by
  unfold State.resumeUnit at h
  split at h
  · split at h <;> cases h <;> exact .of_same rfl rfl rfl rfl rfl rfl
  all_goals cases h

/-- A header that is refused, or accepted without a page: a quiet change, and the interpreter with no record of a page. -/
def State.JudgedOff (s v : State) : Prop :=
  ∃ u i r, s.Quiet u ∧ (i = InterpState.orders → ∀ x, r = some x → Transaction.page x = none) ∧
    v = { u with interp.state := i, interp.txn := r }

theorem State.judgedOff_refuse (status : Status) (detail : Nat) : s.JudgedOff (s.refuse t status detail) :=
  ⟨_, .skipping, none, State.quiet_answer (Report.notEntry_completion _ _ _), nofun, rfl⟩

variable {s t}

theorem State.judgedOff_accept {u : State} (h : s.Quiet u) (hp : t.page = none) : s.JudgedOff (u.accept t) :=
  ⟨u, .orders, some t, h, fun _ _ e => Option.some.inj e ▸ hp, rfl⟩

variable (s t)

/-- R123: what a complete header comes to: its page takes the transaction, or no page does. -/
theorem State.judgeHeader_cases :
    (∃ k p, t.kind = some k ∧ t.page = some p ∧ (s.page p).headerRefusal k (t.operands.getD 0 0x00#8) = none ∧
      s.judgeHeader t = s.acceptOnPage t k p) ∨ s.JudgedOff (s.judgeHeader t) := by
  unfold State.judgeHeader
  simp only
  split
  case h_1 => exact .inr (s.judgedOff_refuse t _ _)
  case h_2 k hk =>
    have off (h : k.namesPage = false) : t.page = none := Transaction.page_of_kind hk h
    cases k with
    | load | amend | post | reopen | close =>
      simp only
      split
      · exact .inr (s.judgedOff_refuse t _ _)
      · split
        · exact .inr (s.judgedOff_refuse t _ _)
        · exact .inl ⟨_, _, hk, ‹_›, ‹_›, rfl⟩
    | restart | setup | query => exact .inr (State.judgedOff_accept (.refl s) (off rfl))
    | store =>
      simp only
      split
      · exact .inr (s.judgedOff_refuse t _ _)
      · exact .inr (State.judgedOff_accept (s.quiet_updSlot _ _) (off rfl))
      · exact .inr (s.judgedOff_refuse t _ _)
    | erase =>
      simp only
      split
      · exact .inr (s.judgedOff_refuse t _ _)
      · split
        · exact .inr (s.judgedOff_refuse t _ _)
        · split
          · exact .inr (State.judgedOff_accept (s.quiet_acceptErase _) (off rfl))
          · exact .inr (State.judgedOff_accept (s.quiet_acceptErase _) (off rfl))
    | pause =>
      simp only
      split
      · exact .inr (s.judgedOff_refuse t _ _)
      · exact .inr (State.judgedOff_accept (s.quiet_pauseUnit ‹_›) (off rfl))
    | resume =>
      simp only
      split
      · exact .inr (s.judgedOff_refuse t _ _)
      · exact .inr (State.judgedOff_accept (s.quiet_resumeUnit ‹_›) (off rfl))

end headers

/-! ### The erase unit, the resets and the expiries -/

section others

variable (s : State)

theorem State.quiet_startSlot (n : SlotNum) : s.Quiet (s.startSlot n) := .of_same rfl rfl rfl rfl rfl rfl

theorem State.quiet_endRun : s.Quiet s.endRun :=
  .trans (.of_same (t := { s with store := { s.store with unit :=
    { s.store.unit with state := .idle, batch := [], result := [] } } }) rfl rfl rfl rfl rfl rfl)
    (State.quiet_handResult _ _)

theorem State.quiet_nextSlot : s.Quiet s.nextSlot := by
  unfold State.nextSlot
  split
  · exact s.quiet_startSlot _
  · exact s.quiet_endRun

theorem State.quiet_restUnit : s.Quiet s.restUnit := by
  unfold State.restUnit
  split
  · exact .of_same rfl rfl rfl rfl rfl rfl
  · exact s.quiet_endRun

theorem State.quiet_passSlot (n : SlotNum) : s.Quiet (s.passSlot n) := .of_same rfl rfl rfl rfl rfl rfl

theorem State.quiet_giveUpSlot (n : SlotNum) : s.Quiet (s.giveUpSlot n) := .of_same rfl rfl rfl rfl rfl rfl

theorem State.quiet_holdSlot (n : SlotNum) (attempts : Nat) : s.Quiet (s.holdSlot n attempts) :=
  .of_same rfl rfl rfl rfl rfl rfl

/-- R170, R172: the end of an attempt touches the Template Store and the report queue. -/
theorem State.quiet_endAttempt (ending : Ending) : s.Quiet (s.endAttempt ending) := by
  unfold State.endAttempt
  split
  · exact .refl s
  · simp only
    split
    · exact (s.quiet_passSlot _).trans (State.quiet_nextSlot _)
    · split
      · exact .of_same rfl rfl rfl rfl rfl rfl
      · exact (s.quiet_giveUpSlot _).trans (State.quiet_nextSlot _)
    · exact s.quiet_holdSlot _ _
    · exact (s.quiet_passSlot _).trans (State.quiet_restUnit _)
    · split
      · exact s.quiet_holdSlot _ _
      · exact (s.quiet_giveUpSlot _).trans (State.quiet_restUnit _)
    all_goals exact .refl s

theorem State.quiet_endGathering : s.Quiet s.endGathering := by
  unfold State.endGathering
  split
  · exact .of_same rfl rfl rfl rfl rfl rfl
  · exact .refl s

theorem State.quiet_expireConfirm : s.Quiet s.expireConfirm := by
  unfold State.expireConfirm
  split
  · exact .refl s
  · simp only
    split
    · exact s.quiet_dropConfirm.trans (State.quiet_setNotice _ _ _)
    · exact s.quiet_dropConfirm

theorem State.quiet_takeAnswerByte : s.Quiet s.takeAnswerByte := by
  unfold State.takeAnswerByte
  split <;> exact .of_same rfl rfl rfl rfl rfl rfl

end others

/-- R20, R21: a page whose timer counts down keeps a timer. -/
theorem Page.edited_tick (g : Page) : g.Edited g.tick := by
  unfold Page.tick
  split
  · rename_i ms h
    split
    · exact ⟨rfl, rfl, by simp [h], rfl, rfl, id⟩
    · exact .refl g
  all_goals exact .refl g

/-- One edit made on page after page. -/
theorem State.quiet_foldl {f : Page → Page} (h : ∀ g : Page, g.Edited (f g)) (ps : List PageNum) (s : State) :
    s.Quiet (ps.foldl (fun s p => s.updPage p f) s) := by
  induction ps generalizing s with
  | nil => exact .refl s
  | cons p ps ih => exact (State.Quiet.setPage (h (s.page p))).trans (ih _)

theorem State.quiet_tick (s : State) : s.Quiet s.tick :=
  (State.quiet_foldl Page.edited_tick allPages s).trans (.of_same rfl rfl rfl rfl rfl rfl)

theorem State.reaches_expire (s : State) (d : Due) : s.Reaches (s.expire d) := by
  cases d with
  | reply p => exact .single (.replyExpiry s p)
  | confirm => exact s.quiet_expireConfirm.reaches
  | gathering => exact s.quiet_endGathering.reaches

/-- With no command waiting a step is an expiry or one ms that passes (log entry 6). -/
theorem State.reaches_idle (s : State) : s.Reaches s.idle := by
  unfold State.idle
  split
  · exact s.quiet_tick.reaches
  · exact s.reaches_expire _
  · have counted : s.Quiet { s with choices := s.choices + 1 } := .of_same rfl rfl rfl rfl rfl rfl
    exact counted.reaches.trans (State.reaches_expire _ _)

/-- Edits of page after page leave everything but the pages. -/
theorem State.foldl_updPage_eq (f : Page → Page) (ps : List PageNum) (s : State) :
    ∃ pages, ps.foldl (fun s p => s.updPage p f) s = { s with pages := pages } := by
  induction ps generalizing s with
  | nil => exact ⟨s.pages, rfl⟩
  | cons p ps ih => exact ih (s.updPage p f)

@[simp] theorem State.returnSending_interp (s : State) : s.returnSending.interp = s.interp := by
  unfold State.returnSending
  simp only [State.promote_interp]
  obtain ⟨pages, e⟩ := State.foldl_updPage_eq Page.unsentReturn (allPages.filter fun p => (s.page p).state = .sending) s
  rw [e]

theorem State.inFlightTxn_congr {s t : State} (hs : t.interp.state = s.interp.state) (ht : t.interp.txn = s.interp.txn) :
    t.inFlightTxn = s.inFlightTxn := by
  simp only [State.inFlightTxn, hs, ht]

@[simp] theorem State.inFlightTxn_handFreed (s : State) : s.handFreed.inFlightTxn = s.inFlightTxn := by
  unfold State.handFreed
  split <;> rfl

@[simp] theorem State.inFlightTxn_handFreedTimes (n : Nat) (s : State) :
    (State.handFreedTimes n s).inFlightTxn = s.inFlightTxn := by
  induction n generalizing s with
  | zero => rfl
  | succ n ih => exact (ih _).trans s.inFlightTxn_handFreed

@[simp] theorem State.abortEffects_interp (s : State) (t : Transaction) : (s.abortEffects t).interp = s.interp := by
  unfold State.abortEffects
  split
  · rfl
  · split <;> rfl
  · rfl

@[simp] theorem State.inFlightTxn_cutShort (s : State) : s.cutShort.inFlightTxn = s.inFlightTxn := by
  unfold State.cutShort
  apply State.inFlightTxn_congr <;> simp only <;> split <;> simp

/-- A stream reset keeps the record of the transaction it cuts short until its last step. -/
theorem State.inFlightTxn_streamEmptied (s : State) : s.streamEmptied.inFlightTxn = s.inFlightTxn := by
  rw [State.streamEmptied, State.inFlightTxn_handFreedTimes]
  exact (State.inFlightTxn_congr (s := s.cutShort) (by simp [State.emptyReports]) (by simp [State.emptyReports])).trans
    s.inFlightTxn_cutShort

/-- R157: a stream reset, its last step the close of the transaction it cuts short, if there is one. -/
theorem State.reaches_streamReset (s : State) : s.Reaches s.streamEmptied.endCutShort := by
  unfold State.endCutShort
  rw [State.inFlightTxn_streamEmptied]
  split
  · exact .head (.cutShort ‹_›) (State.keyed_closeTransaction _ _ _).reaches
  · exact .single (.emptied ‹_›)

/-! ### Commands and steps -/

/-- A command of the stream port delivers bytes there. -/
theorem exec_of_onStreamPort {c : Instr} (h : onStreamPort c = true) (s : State) :
    ∃ bytes, exec c s = .next (s.takeStream bytes) := by
  cases c <;> cases h <;> exact ⟨_, rfl⟩

/-- A key command delivers its code to the input port. -/
theorem exec_of_keyCode {c : Instr} {b : Byte} (h : keyCode c = some b) (s : State) :
    exec c s = .next (s.takeInput [b]) := by
  cases c <;> cases h <;> rfl

/-- Whatever a command does, it does by events. -/
theorem State.reaches_of_exec {c : Instr} {s t : State} (h : exec c s = .next t) : s.Reaches t := by
  by_cases stream : onStreamPort c = true
  · obtain ⟨bytes, e⟩ := exec_of_onStreamPort stream s
    cases e.symm.trans h
    exact s.reaches_takeStream bytes
  · cases key : keyCode c with
    | some b =>
      cases (exec_of_keyCode key s).symm.trans h
      exact (s.keyed_takeInput [b]).reaches
    | none =>
      cases c with
      | resetLine => cases h; exact .single (.lineReset s)
      | streamReset => cases h; exact s.reaches_streamReset
      | reportByteTaken => cases h; exact .single (.reportByte s)
      | scanFrame length characters => cases h; exact (s.keyed_takeInput _).reaches
      | scanAnswerByteTaken => cases h; exact s.quiet_takeAnswerByte.reaches
      | rowRequest row => cases h; exact State.Quiet.reaches (.of_same rfl rfl rfl rfl rfl rfl)
      | cursorRequest => cases h; exact State.Quiet.reaches (.of_same rfl rfl rfl rfl rfl rfl)
      | replyTimerExpiry p => cases h; exact .single (.replyExpiry s p)
      | confirmWindowExpiry => cases h; exact s.quiet_expireConfirm.reaches
      | gatheringWindowExpiry => cases h; exact s.quiet_endGathering.reaches
      | attemptEnd ending => cases h; exact (s.quiet_endAttempt ending).reaches
      | attemptStopped ending => cases h; exact (s.quiet_endAttempt ending).reaches
      | _ => simp [onStreamPort, keyCode] at stream key

/-- Whatever a step does, it does by events. -/
theorem State.reaches_of_step {s t : State} (h : step s = .next t) : s.Reaches t := by
  unfold step at h
  split at h
  · cases h; exact s.reaches_idle
  · have taken (rest : List Instr) : s.Quiet { s with pending := rest } := .of_same rfl rfl rfl rfl rfl rfl
    exact (taken _).reaches.trans (State.reaches_of_exec h)

end Sys2Proof.Machine

namespace Sys2Proof.Machine

/-! # The Page Store's law

An event other than an edit leaves each page's cells, or empties them with the page's release. -/

/-- Each page's cells stay, or the page is emptied. -/
def State.CellsKept (s t : State) : Prop := ∀ p, (t.page p).cells = (s.page p).cells ∨ (t.page p).cells = []

section cells

variable (s : State)

theorem State.CellsKept.refl : s.CellsKept s := fun _ => .inl rfl

variable {s}

theorem State.CellsKept.trans {t u : State} (a : s.CellsKept t) (b : t.CellsKept u) : s.CellsKept u := fun p =>
  (b p).elim (fun e => (a p).imp e.trans e.trans) .inr

theorem State.CellsKept.of_pages {t : State} (h : ∀ p, t.page p = s.page p) : s.CellsKept t := fun p =>
  .inl (congrArg Page.cells (h p))

theorem State.CellsKept.updPage {p : PageNum} {f : Page → Page}
    (h : (f (s.page p)).cells = (s.page p).cells ∨ (f (s.page p)).cells = []) : s.CellsKept (s.updPage p f) := fun q => by
  rw [State.page_updPage]
  split
  · subst_vars; exact h
  · exact .inl rfl

variable (s)

/-- A page set to a state, its cells left, and others of the state's items changed. -/
theorem State.CellsKept.of_updPage {u : State} {p : PageNum} {f : Page → Page} (hf : ∀ g, (f g).cells = g.cells)
    (h : u.pages = (s.updPage p f).pages) : s.CellsKept u := fun q => by
  have e : u.page q = (s.updPage p f).page q := by simp only [State.page, h]
  rw [e]
  exact State.CellsKept.updPage (.inl (hf _)) q

@[simp] theorem State.refuseHeld_pages : s.refuseHeld.pages = s.pages := by
  unfold State.refuseHeld; split <;> rfl

theorem State.cellsKept_promote : s.CellsKept s.promote := by
  unfold State.promote
  split
  · rename_i p rest _ _
    exact .of_updPage s (p := p) (f := fun g => { g with state := .active }) (fun _ => rfl) (by simp)
  · exact .refl s

theorem State.cellsKept_acceptSend (p : PageNum) (id : Nat) : s.CellsKept (s.acceptSend p id) :=
  .trans (.of_updPage s (p := p) (f := Page.sent) (fun _ => rfl) rfl) (State.cellsKept_promote _)

theorem State.cellsKept_parkKey (p : PageNum) : s.CellsKept (s.parkKey p) := by
  unfold State.parkKey
  split
  · exact .of_updPage s (p := p) (f := fun g => { g with notice := some .noNext }) (fun _ => rfl) rfl
  · exact .trans (.of_updPage s (p := p) (f := fun g => { g with state := .ready }) (fun _ => rfl) rfl)
      (State.cellsKept_promote _)

theorem State.cellsKept_returnToHead (p : PageNum) {f : Page → Page} (h : ∀ g : Page, (f g).cells = g.cells) :
    s.CellsKept (s.returnToHead p f) :=
  .trans (.of_updPage s (p := p) (f := fun g => f { g with state := .ready, timer := .absent }) (fun _ => h _) rfl)
    (State.cellsKept_promote _)

theorem State.cellsKept_expireReply (p : PageNum) : s.CellsKept (s.expireReply p) := by
  unfold State.expireReply
  split
  · exact s.cellsKept_returnToHead p fun _ => rfl
  · exact .refl s

theorem State.cellsKept_handFreed : s.CellsKept s.handFreed := by
  unfold State.handFreed
  split
  · exact .refl s
  · exact .refl s
  · rename_i p cause _ _ _
    exact .of_updPage s (p := p) (f := fun g => { g with attention := g.attention.remove cause }) (fun _ => rfl) rfl
  · exact .refl s

theorem State.cellsKept_handFreedTimes (n : Nat) : s.CellsKept (State.handFreedTimes n s) := by
  induction n generalizing s with
  | zero => exact .refl s
  | succ n ih => exact s.cellsKept_handFreed.trans (ih _)

theorem State.cellsKept_reportLeft (r : Report) : s.CellsKept (s.reportLeft r) := by
  cases r with
  | entry e => exact .updPage (.inl rfl)
  | _ => exact .refl s

theorem State.cellsKept_takeReportByte : s.CellsKept s.takeReportByte := by
  unfold State.takeReportByte
  split
  · exact .refl s
  · split
    · exact .refl s
    · simp only
      split
      · exact .refl s
      · refine .trans ?_ (State.cellsKept_handFreed _)
        exact State.cellsKept_reportLeft _ _

theorem State.cellsKept_abortEffects (t : Transaction) : s.CellsKept (s.abortEffects t) := by
  unfold State.abortEffects
  split
  · exact .updPage (.inr rfl)
  · split <;> exact .refl s
  · exact .refl s

theorem State.cellsKept_clearMark (t : Transaction) : s.CellsKept (s.clearMark t) := by
  unfold State.clearMark
  split
  · exact .updPage (.inl rfl)
  · exact .refl s

theorem State.cellsKept_closed (t : Transaction) (next : InterpState) : s.CellsKept (s.closed t next) :=
  State.cellsKept_clearMark _ t

theorem State.cellsKept_answer (r : Report) : s.CellsKept (s.answer r) := .of_pages (State.answer_page s r)

theorem State.cellsKept_loadEnd (p : PageNum) : s.CellsKept (s.loadEnd p) :=
  .trans (.of_updPage s (p := p) (f := fun g => { g with state := .ready }) (fun _ => rfl) rfl)
    (State.cellsKept_promote _)

theorem State.cellsKept_endEffects (t : Transaction) : s.CellsKept (s.endEffects t) := by
  unfold State.endEffects
  simp only
  split
  · exact s.cellsKept_loadEnd _
  · exact s.cellsKept_returnToHead _ fun _ => rfl
  · exact .updPage (.inr rfl)
  · exact .refl s
  · intro p
    exact .inr (by simp [State.restartEnd, State.page, Page.blank])
  · split <;> exact .refl s
  · exact .refl s

theorem State.cellsKept_ended (t : Transaction) : s.CellsKept (s.ended t) :=
  ((s.cellsKept_endEffects t).trans (State.cellsKept_answer _ _)).trans (State.cellsKept_closed _ t .between)

theorem State.cellsKept_aborted (t : Transaction) (status : Status) (detail : Nat) (next : InterpState) :
    s.CellsKept (s.aborted t status detail next) :=
  ((s.cellsKept_abortEffects t).trans (State.cellsKept_answer _ _)).trans (State.cellsKept_closed _ t next)

theorem State.cellsKept_foldl {f : Page → Page} (h : ∀ g : Page, (f g).cells = g.cells) (ps : List PageNum) :
    s.CellsKept (ps.foldl (fun s p => s.updPage p f) s) := by
  induction ps generalizing s with
  | nil => exact .refl s
  | cons p ps ih => exact .trans (.updPage (.inl (h _))) (ih _)

theorem Page.unsentReturn_cells (g : Page) : g.unsentReturn.cells = g.cells := by
  unfold Page.unsentReturn; split <;> rfl

theorem State.cellsKept_returnSending : s.CellsKept s.returnSending :=
  .trans (s.cellsKept_foldl Page.unsentReturn_cells _) (State.cellsKept_promote _)

theorem State.cellsKept_cutShort : s.CellsKept s.cutShort := by
  unfold State.cutShort
  simp only
  split
  · exact s.cellsKept_abortEffects _
  · exact .refl s

theorem State.cellsKept_streamEmptied : s.CellsKept s.streamEmptied :=
  .trans (.trans s.cellsKept_cutShort (State.cellsKept_returnSending s.cutShort.emptyReports))
    (State.cellsKept_handFreedTimes _ _)

end cells

theorem State.CellsKept.cellLaw {s t : State} (h : s.CellsKept t) (law : s.CellLaw) : t.CellLaw := fun p =>
  (h p).elim (fun e => e ▸ law p) fun e => e ▸ Cells.legal_nil

theorem State.KeyEvent.cellLaw {s t : State} (h : s.KeyEvent t) (law : s.CellLaw) : t.CellLaw := by
  cases h with
  | quiet h => exact fun p => (h.pages p).cells (law p)
  | noForm => exact law
  | send _ id => exact (s.cellsKept_acceptSend _ id).cellLaw law
  | park => exact (s.cellsKept_parkKey _).cellLaw law

/-- R132: every event keeps what R132 says of each page's cells. -/
theorem State.Event.cellLaw {s t : State} (h : s.Event t) (law : s.CellLaw) : t.CellLaw := by
  cases h with
  | key h => exact h.cellLaw law
  | replyExpiry p => exact (s.cellsKept_expireReply p).cellLaw law
  | reportByte => exact s.cellsKept_takeReportByte.cellLaw law
  | header _ t =>
    rcases s.judgeHeader_cases t with ⟨k, p, _, _, _, e⟩ | ⟨u, i, r, quiet, _, e⟩
    · rw [e]
      exact (State.CellsKept.of_updPage s (p := p) (f := fun g =>
        { g with inFlight := true, state := if k = .load then .loading else g.state }) (fun _ => rfl) rfl).cellLaw law
    · rw [e]
      exact fun p => (quiet.pages p).cells (law p)
  | ended _ => exact (s.cellsKept_ended _).cellLaw law
  | aborted _ status detail next => exact (s.cellsKept_aborted _ status detail next).cellLaw law
  | cutShort _ => exact (s.cellsKept_streamEmptied.trans (State.cellsKept_closed _ _ .between)).cellLaw law
  | emptied _ => exact s.cellsKept_streamEmptied.cellLaw law
  | lineReset =>
    intro p
    have blank : (s.lineReset.page p).cells = [] := by simp [State.lineReset, State.reset, State.page, Page.blank]
    exact blank ▸ Cells.legal_nil

/-- Settles O4: every step is a run of events, and every event keeps the cells legal. -/
theorem stepKeepsCellLaw : Obligations.StepKeepsCellLaw := by
  intro s t law h
  have run : s.Reaches t := State.reaches_of_step h
  clear h
  induction run with
  | refl => exact law
  | tail _ event ih => exact event.cellLaw ih

end Sys2Proof.Machine

/-! # Page Control's law

The law is taken apart into what stands of each page by itself, that the ready queue has been promoted from, and what the
transaction in flight says of the pages. Only the first two hold in the middle of an event. -/

namespace Sys2Proof.Machine

/-! ## The parts of the law -/

/-- What Page Control states of one page, the transaction in flight aside (R4, R20, R24, R145). -/
structure State.PageStands (s : State) (p : PageNum) : Prop where
  active : s.active = some p ↔ (s.page p).state = .active
  ready : p ∈ s.ready ↔ (s.page p).state = .ready
  entries : s.entryCount p = if (s.page p).state = .sending then 1 else 0
  timer : (s.page p).timer = .absent ↔ (s.page p).state ≠ .awaiting
  sent : (s.page p).state = .sending ∨ (s.page p).state = .awaiting →
    (s.page p).overdue = false ∧ (s.page p).unsent = false
  marks : ¬((s.page p).overdue = true ∧ (s.page p).unsent = true)

/-- What Page Control states of all pages, the transaction in flight and promotion aside. -/
structure State.Standing (s : State) : Prop where
  pages : ∀ p, s.PageStands p
  readyOnce : s.ready.Nodup
  noPage : s.active ≠ none → s.noPage = none
  stalled : ∀ r, s.interp.stalled = some r → r.notEntry

/-- R6: a page waits in the ready queue only behind an active page. -/
def State.Promoted (s : State) : Prop := s.ready ≠ [] → s.active ≠ none

/-- What the transaction in flight says of the pages (R8, R12). -/
structure State.FlightLaw (s : State) : Prop where
  marked : ∀ p, (s.page p).inFlight = true ↔ ∃ t, s.inFlightTxn = some t ∧ t.page = some p
  loading : ∀ p, (s.page p).state = .loading ↔ ∃ t, s.inFlightTxn = some t ∧ t.kind = some .load ∧ t.page = some p
  replied : ∀ t p, s.inFlightTxn = some t → t.kind = some .reopen ∨ t.kind = some .close → t.page = some p →
    (s.page p).state = .awaiting

theorem State.pageLaw_iff {s : State} : s.PageLaw ↔ s.Standing ∧ s.Promoted ∧ s.FlightLaw := by
  constructor
  · intro h
    exact ⟨⟨fun p => ⟨h.active p, h.ready p, h.entries p, h.timer p, h.sent p, h.marks p⟩, h.readyOnce, h.noPage,
      fun r e p => h.stalled p r e⟩, h.promoted, ⟨h.marked, h.loading, h.replied⟩⟩
  · rintro ⟨a, b, c⟩
    exact ⟨fun p => (a.pages p).active, a.readyOnce, fun p => (a.pages p).ready, b, a.noPage, c.marked, c.loading,
      c.replied, fun p => (a.pages p).entries, fun p r e => a.stalled r e p, fun p => (a.pages p).timer,
      fun p => (a.pages p).sent, fun p => (a.pages p).marks⟩

/-! ## Quiet changes -/

/-- A page that keeps its state and its marks, and its timer or the lack of one, stands as it stood. -/
theorem State.PageStands.congr {s t : State} {p : PageNum} (h : s.PageStands p)
    (state : (t.page p).state = (s.page p).state) (timer : (t.page p).timer = .absent ↔ (s.page p).timer = .absent)
    (overdue : (t.page p).overdue = (s.page p).overdue) (unsent : (t.page p).unsent = (s.page p).unsent)
    (active : t.active = some p ↔ s.active = some p) (ready : p ∈ t.ready ↔ p ∈ s.ready)
    (count : t.entryCount p = s.entryCount p) : t.PageStands p where
  active := by rw [active, state]; exact h.active
  ready := by rw [ready, state]; exact h.ready
  entries := by rw [count, state]; exact h.entries
  timer := by rw [timer, state]; exact h.timer
  sent := by rw [state, overdue, unsent]; exact h.sent
  marks := by rw [overdue, unsent]; exact h.marks

theorem State.PageStands.of_edited {s t : State} {p : PageNum} (h : s.PageStands p) (e : (s.page p).Edited (t.page p))
    (active : t.active = some p ↔ s.active = some p) (ready : p ∈ t.ready ↔ p ∈ s.ready)
    (count : t.entryCount p = s.entryCount p) : t.PageStands p :=
  h.congr e.state e.timer e.overdue e.unsent active ready count

theorem State.Standing.quiet {s t : State} (h : s.Standing) (q : s.Quiet t) : t.Standing where
  pages p := (h.pages p).of_edited (q.pages p) (by rw [q.active]) (by rw [q.ready]) (q.entries p)
  readyOnce := q.ready ▸ h.readyOnce
  noPage := by rw [q.active, q.noPage]; exact h.noPage
  stalled r e := (q.stalled r e).elim (h.stalled r) id

theorem State.Promoted.quiet {s t : State} (h : s.Promoted) (q : s.Quiet t) : t.Promoted := by
  unfold State.Promoted
  rw [q.ready, q.active]; exact h

/-- Kind and page of a transaction are read off its header (R120). -/
theorem Transaction.kind_congr {t u : Transaction} (h : u.header = t.header) : u.kind = t.kind := by
  simp only [Transaction.kind, h]

theorem Transaction.page_congr {t u : Transaction} (h : u.header = t.header) : u.page = t.page := by
  simp only [Transaction.page, Transaction.kind, h]

/-- What the flight law asks of a page when it changes under the same transaction: its mark stays, and its state too unless
the transaction has no say in it. -/
structure Page.Flown (g h : Page) : Prop where
  inFlight : h.inFlight = g.inFlight
  loading : h.state = .loading ↔ g.state = .loading
  awaiting : g.inFlight = true → g.state = .awaiting → h.state = .awaiting

theorem Page.Flown.refl (g : Page) : g.Flown g := ⟨rfl, .rfl, fun _ => id⟩

theorem Page.Edited.flown {g h : Page} (e : g.Edited h) : g.Flown h :=
  ⟨e.inFlight, by rw [e.state], fun _ a => e.state.trans a⟩

theorem State.FlightLaw.flown {s t : State} (h : s.FlightLaw) (pages : ∀ p, (s.page p).Flown (t.page p))
    (header : t.flyingHeader = s.flyingHeader) : t.FlightLaw := by
  have same : (∃ a b, s.inFlightTxn = some a ∧ t.inFlightTxn = some b ∧ b.header = a.header) ∨
      s.inFlightTxn = none ∧ t.inFlightTxn = none := by
    unfold State.flyingHeader at header
    cases hs : s.inFlightTxn <;> cases ht : t.inFlightTxn <;> simp_all
  rcases same with ⟨a, b, ha, hb, e⟩ | ⟨hs, ht⟩
  · have kind := Transaction.kind_congr e
    have page := Transaction.page_congr e
    refine ⟨fun p => ?_, fun p => ?_, fun x p hx hk hp => ?_⟩
    · rw [(pages p).inFlight, h.marked p]
      simp [ha, hb, page]
    · rw [(pages p).loading, h.loading p]
      simp [ha, hb, kind, page]
    · obtain rfl := Option.some.inj (hb.symm.trans hx)
      have marked : (s.page p).inFlight = true := (h.marked p).2 ⟨a, ha, page.symm.trans hp⟩
      exact (pages p).awaiting marked (h.replied a p ha (kind ▸ hk) (page.symm.trans hp))
  · refine ⟨fun p => ?_, fun p => ?_, fun x p hx => ?_⟩
    · rw [(pages p).inFlight, h.marked p]
      simp [hs, ht]
    · rw [(pages p).loading, h.loading p]
      simp [hs, ht]
    · rw [ht] at hx; cases hx

theorem State.PageLaw.quiet {s t : State} (h : s.PageLaw) (q : s.Quiet t) : t.PageLaw := by
  obtain ⟨a, b, c⟩ := State.pageLaw_iff.1 h
  exact State.pageLaw_iff.2 ⟨a.quiet q, b.quiet q, c.flown (fun p => (q.pages p).flown) q.header⟩

/-! ## A change of one page -/

/-- Page Control after an event that changes page p and leaves the others. -/
theorem State.Standing.change {s t : State} (h : s.Standing) (p : PageNum) (here : t.PageStands p)
    (others : ∀ q, q ≠ p → t.page q = s.page q ∧ (t.active = some q ↔ s.active = some q) ∧
      (q ∈ t.ready ↔ q ∈ s.ready) ∧ t.entryCount q = s.entryCount q)
    (readyOnce : t.ready.Nodup) (noPage : t.active ≠ none → t.noPage = none)
    (stalled : ∀ r, t.interp.stalled = some r → s.interp.stalled = some r) : t.Standing where
  pages q := by
    by_cases e : q = p
    · exact e ▸ here
    · obtain ⟨page, active, ready, count⟩ := others q e
      exact (h.pages q).of_edited (page ▸ .refl _) active ready count
  readyOnce := readyOnce
  noPage := noPage
  stalled r e := h.stalled r (stalled r e)

/-! ### Promotion -/

section promotion

variable {s : State} {p : PageNum} {rest : List PageNum}

theorem State.page_promote (ha : s.active = none) (hr : s.ready = p :: rest) (q : PageNum) :
    s.promote.page q = if q = p then { s.page p with state := .active } else s.page q := by
  rw [State.promote_head ha hr]
  exact State.page_setPage s p q _

theorem State.promote_ready (ha : s.active = none) (hr : s.ready = p :: rest) : s.promote.ready = rest := by
  rw [State.promote_head ha hr]

theorem State.promote_active_head (ha : s.active = none) (hr : s.ready = p :: rest) : s.promote.active = some p := by
  rw [State.promote_head ha hr]

theorem State.promote_noPage (ha : s.active = none) (hr : s.ready = p :: rest) : s.promote.noPage = none := by
  rw [State.promote_head ha hr]

@[simp] theorem State.promote_reports (s : State) : s.promote.reports = s.reports := by
  unfold State.promote State.refuseHeld; split
  · simp only; split <;> rfl
  · rfl

theorem State.entryCount_congr {s t : State} (h : t.reports.queue = s.reports.queue) (p : PageNum) :
    t.entryCount p = s.entryCount p := by
  simp only [State.entryCount, h]

/-- R6: promotion keeps what stands of the pages. -/
theorem State.Standing.promote (h : s.Standing) : s.promote.Standing := by
  cases ha : s.active with
  | some a => rw [State.promote_active ha]; exact h
  | none =>
    cases hr : s.ready with
    | nil => rw [State.promote_empty hr]; exact h
    | cons p rest =>
      obtain ⟨fresh, once⟩ := List.nodup_cons.1 (hr ▸ h.readyOnce)
      have page := State.page_promote ha hr
      have ready := State.promote_ready ha hr
      have active := State.promote_active_head ha hr
      have count : ∀ q, s.promote.entryCount q = s.entryCount q := State.entryCount_congr (by simp)
      have stands := h.pages p
      have wasReady : (s.page p).state = .ready := stands.ready.1 (by simp [hr])
      have here : s.promote.PageStands p :=
        { active := by simp [active, page]
          ready := by simp [ready, page, fresh]
          entries := by simpa [count, page, wasReady] using stands.entries
          timer := by simpa [page, wasReady] using stands.timer
          sent := by simp [page]
          marks := by simpa [page] using stands.marks }
      refine h.change p here (fun q e => ⟨by simp [page, e], ?_, ?_, count q⟩) (ready ▸ once)
        (fun _ => State.promote_noPage ha hr) (by simp)
      · simp [active, ha, Ne.symm e]
      · simp [ready, hr, e]

/-- R6: after promotion no page waits without an active page. -/
theorem State.promoted_promote (s : State) : s.promote.Promoted := by
  cases ha : s.active with
  | some a => rw [State.promote_active ha]; exact fun _ => by simp [ha]
  | none =>
    cases hr : s.ready with
    | nil => rw [State.promote_empty hr]; exact fun e => absurd hr e
    | cons p rest => exact fun _ => by simp [State.promote_active_head ha hr]

/-- A promoted page was READY, which the transaction in flight leaves open. -/
theorem State.flown_promote (h : s.Standing) (q : PageNum) : (s.page q).Flown (s.promote.page q) := by
  cases ha : s.active with
  | some a => rw [State.promote_active ha]; exact .refl _
  | none =>
    cases hr : s.ready with
    | nil => rw [State.promote_empty hr]; exact .refl _
    | cons p rest =>
      have wasReady : (s.page p).state = .ready := (h.pages p).ready.1 (by simp [hr])
      rw [State.page_promote ha hr]
      split
      · subst_vars; exact ⟨rfl, by simp [wasReady], by simp [wasReady]⟩
      · exact .refl _

/-- The law of Page Control is reached by promotion from a state in which it stands of the pages. -/
theorem State.Standing.pageLaw_promote (h : s.Standing) (flight : s.FlightLaw) : s.promote.PageLaw :=
  State.pageLaw_iff.2 ⟨h.promote, s.promoted_promote,
    flight.flown (State.flown_promote h) (State.flyingHeader_congr (by simp))⟩

end promotion

/-! ### Sends, parks and reply expiries -/

/-- A page changed and the rest of the pages left. -/
theorem State.page_of_updPage {s u : State} {p : PageNum} {f : Page → Page} (h : u.pages = (s.updPage p f).pages)
    (q : PageNum) : u.page q = if q = p then f (s.page p) else s.page q := by
  have e : u.page q = (s.updPage p f).page q := by simp only [State.page, h]
  rw [e, State.page_updPage]

theorem Report.isEntryOf_entry {e : EntryReport} {q : PageNum} : Report.isEntryOf q (.entry e) = true ↔ q = e.page := by
  simp only [Report.isEntryOf, beq_iff_eq]
  exact eq_comm

section moves

variable {s u : State} {p : PageNum}

/-- R16: what stands of the pages once the active page has been sent, before promotion. -/
theorem State.Standing.sent (h : s.Standing) (ha : s.active = some p)
    (page : ∀ q, u.page q = if q = p then (s.page p).sent else s.page q) (ready : u.ready = s.ready)
    (active : u.active = none) (interp : u.interp = s.interp)
    (count : ∀ q, u.entryCount q = s.entryCount q + if q = p then 1 else 0) : u.Standing := by
  have stands := h.pages p
  have wasActive : (s.page p).state = .active := stands.active.1 ha
  have here : u.PageStands p :=
    { active := by simp [active, page, Page.sent]
      ready := by simpa [ready, page, Page.sent, wasActive] using stands.ready
      entries := by simpa [count, page, Page.sent, wasActive] using stands.entries
      timer := by simpa [page, Page.sent, wasActive] using stands.timer
      sent := by simp [page, Page.sent]
      marks := by simp [page, Page.sent] }
  refine h.change p here (fun q e => ⟨by simp [page, e], ?_, by rw [ready], by simp [count, e]⟩) (ready ▸ h.readyOnce)
    (by simp [active]) (by simp [interp])
  simp [active, ha, Ne.symm e]

theorem State.PageLaw.acceptSend (law : s.PageLaw) (ha : s.active = some p) (id : Nat) : (s.acceptSend p id).PageLaw := by
  obtain ⟨h, -, flight⟩ := State.pageLaw_iff.1 law
  have wasActive : (s.page p).state = .active := (h.pages p).active.1 ha
  have page := State.page_of_updPage (s := s) (p := p) (f := Page.sent) rfl
  refine State.Standing.pageLaw_promote (h.sent ha page rfl rfl rfl fun q => ?_) (flight.flown (fun q => ?_) rfl)
  · simp [State.entryCount, State.leaveActive, entryReportOf, List.countP_append, List.countP_cons, Report.isEntryOf_entry]
  · refine (page q).symm ▸ ?_
    split
    · subst_vars; exact ⟨rfl, by simp [Page.sent, wasActive], by simp [wasActive]⟩
    · exact .refl _

/-- R7: what stands of the pages once the active page has been parked, before promotion. -/
theorem State.Standing.parked (h : s.Standing) (ha : s.active = some p)
    (page : ∀ q, u.page q = if q = p then { s.page p with state := .ready } else s.page q)
    (ready : u.ready = s.ready ++ [p]) (active : u.active = none) (interp : u.interp = s.interp)
    (count : ∀ q, u.entryCount q = s.entryCount q) : u.Standing := by
  have stands := h.pages p
  have wasActive : (s.page p).state = .active := stands.active.1 ha
  have fresh : p ∉ s.ready := by simp [stands.ready, wasActive]
  have here : u.PageStands p :=
    { active := by simp [active, page]
      ready := by simp [ready, page]
      entries := by simpa [count, page, wasActive] using stands.entries
      timer := by simpa [page, wasActive] using stands.timer
      sent := by simp [page]
      marks := by simpa [page] using stands.marks }
  refine h.change p here (fun q e => ⟨by simp [page, e], ?_, by simp [ready, e], count q⟩) ?_
    (by simp [active]) (by simp [interp])
  · simp [active, ha, Ne.symm e]
  · rw [ready, ← List.concat_eq_append]; exact h.readyOnce.concat fresh

theorem State.PageLaw.parkKey (law : s.PageLaw) (ha : s.active = some p) : (s.parkKey p).PageLaw := by
  obtain ⟨h, -, flight⟩ := State.pageLaw_iff.1 law
  have wasActive : (s.page p).state = .active := (h.pages p).active.1 ha
  unfold State.parkKey
  split
  · exact law.quiet (s.quiet_setNotice p _)
  · have page := State.page_of_updPage (s := s) (p := p) (f := fun g => { g with state := .ready }) rfl
    refine State.Standing.pageLaw_promote (h.parked ha page rfl rfl rfl fun _ => rfl) (flight.flown (fun q => ?_) rfl)
    refine (page q).symm ▸ ?_
    split
    · subst_vars; exact ⟨rfl, by simp [wasActive], by simp [wasActive]⟩
    · exact .refl _

/-- R13, R22: what stands of the pages once an AWAITING page has returned to the head, before promotion. -/
theorem State.Standing.returned (h : s.Standing) {g : Page} (wasAwaiting : (s.page p).state = .awaiting)
    (page : ∀ q, u.page q = if q = p then g else s.page q) (state : g.state = .ready) (timer : g.timer = .absent)
    (unsent : g.unsent = (s.page p).unsent) (ready : u.ready = p :: s.ready) (active : u.active = s.active)
    (noPage : u.noPage = s.noPage) (interp : u.interp = s.interp) (count : ∀ q, u.entryCount q = s.entryCount q) :
    u.Standing := by
  have stands := h.pages p
  have fresh : p ∉ s.ready := by simp [stands.ready, wasAwaiting]
  have here : u.PageStands p :=
    { active := by simpa [active, page, state, wasAwaiting] using stands.active
      ready := by simp [ready, page, state]
      entries := by simpa [count, page, state, wasAwaiting] using stands.entries
      timer := by simp [page, timer, state]
      sent := by simp [page, state]
      marks := by simp [page, unsent, stands.sent (.inr wasAwaiting)] }
  exact h.change p here (fun q e => ⟨by simp [page, e], by rw [active], by simp [ready, e], count q⟩)
    (by rw [ready]; exact List.nodup_cons.2 ⟨fresh, h.readyOnce⟩) (by rw [active, noPage]; exact h.noPage) (by simp [interp])

theorem Page.timerRuns_iff {g : Page} :
    g.timerRuns = true ↔ g.state = .awaiting ∧ g.inFlight = false ∧ ∃ ms, g.timer = .remaining ms := by
  unfold Page.timerRuns
  cases g.timer <;> simp

theorem State.PageLaw.expireReply (law : s.PageLaw) (p : PageNum) : (s.expireReply p).PageLaw := by
  unfold State.expireReply
  split
  · rename_i runs
    obtain ⟨wasAwaiting, unmarked, -⟩ := Page.timerRuns_iff.1 runs
    obtain ⟨h, -, flight⟩ := State.pageLaw_iff.1 law
    have page := State.page_of_updPage (s := s) (p := p)
      (f := fun g => { g with state := .ready, timer := .absent, overdue := true }) rfl
    refine State.Standing.pageLaw_promote (h.returned wasAwaiting page rfl rfl rfl rfl rfl rfl rfl fun _ => rfl)
      (flight.flown (fun q => ?_) rfl)
    refine (page q).symm ▸ ?_
    split
    · subst_vars; exact ⟨rfl, by simp [wasAwaiting], by simp [unmarked]⟩
    · exact .refl _
  · exact law

/-! ### Report bytes -/

/-- R17, R20: what stands of the pages once the last byte of a page's entry report has been taken. -/
theorem State.Standing.awaited (h : s.Standing) {timer : ReplyTimer} {e : EntryReport} {rest : List Report}
    (queue : s.reports.queue = .entry e :: rest) (running : timer ≠ .absent)
    (page : ∀ q, u.page q = if q = e.page then { s.page e.page with state := .awaiting, timer := timer } else s.page q)
    (left : u.reports.queue = rest) (ready : u.ready = s.ready) (active : u.active = s.active)
    (noPage : u.noPage = s.noPage) (interp : u.interp = s.interp) :
    u.Standing ∧ (s.page e.page).state = .sending := by
  have stands := h.pages e.page
  have entries := stands.entries
  have counted : ∀ q, s.entryCount q = u.entryCount q + if q = e.page then 1 else 0 := fun q => by
    simp [State.entryCount, queue, left, List.countP_cons, Report.isEntryOf_entry]
  have wasSending : (s.page e.page).state = .sending := by
    by_contra other
    simp [counted, other] at entries
  have gone : u.entryCount e.page = 0 := by simpa [counted, wasSending] using entries
  have here : u.PageStands e.page :=
    { active := by simpa [active, page, wasSending] using stands.active
      ready := by simpa [ready, page, wasSending] using stands.ready
      entries := by simp [gone, page]
      timer := by simp [page, running]
      sent := by simpa [page] using stands.sent (.inl wasSending)
      marks := by simpa [page] using stands.marks }
  exact ⟨h.change e.page here
    (fun q ne => ⟨by simp [page, ne], by rw [active], by rw [ready], by simp [counted, ne]⟩)
    (ready ▸ h.readyOnce) (by rw [active, noPage]; exact h.noPage) (by simp [interp]), wasSending⟩

theorem State.quiet_handFreed (h : ∀ r, s.interp.stalled = some r → r.notEntry) : s.Quiet s.handFreed := by
  unfold State.handFreed
  split
  · rename_i r stalled
    have freed : s.Quiet { s with interp.stalled := none } := ⟨fun _ => .refl _, rfl, rfl, rfl, rfl, fun _ => rfl, nofun⟩
    exact freed.trans (State.quiet_queueReport (h r stalled))
  · have taken : s.Quiet { s with reports.notice := none } := .of_same rfl rfl rfl rfl rfl rfl
    exact taken.trans (State.quiet_queueReport (Report.notEntry_eraseDone _))
  · exact (State.quiet_queueReport (Report.notEntry_attention _ _ _)).trans
      (.setPage ⟨rfl, rfl, .rfl, rfl, rfl, id⟩)
  · exact .refl s

theorem State.quiet_handFreedTimes (n : Nat) (h : ∀ r, s.interp.stalled = some r → r.notEntry) :
    s.Quiet (State.handFreedTimes n s) := by
  induction n generalizing s with
  | zero => exact .refl s
  | succ n ih =>
    have once := State.quiet_handFreed h
    exact once.trans (ih fun r e => (once.stalled r e).elim (h r) id)

/-- A report other than an entry report leaves the queue quietly. -/
theorem State.quiet_leaveQueue {r : Report} {rest : List Report} (h : r.notEntry) (queue : s.reports.queue = r :: rest)
    (taken : Nat) (outputs : PortOutputs) :
    s.Quiet { s with reports.queue := rest, reports.taken := taken, outputs := outputs } :=
  ⟨fun _ => .refl _, rfl, rfl, rfl, rfl, fun p => by simp [State.entryCount, queue, h p], fun _ => .inl⟩

/-- R20: the timer that a page's reply is awaited with. -/
def State.replyStart (s : State) : ReplyTimer :=
  if s.interp.replyLimit = 0 then .notRunning else .remaining (s.interp.replyLimit * 1000)

theorem State.replyStart_ne (s : State) : s.replyStart ≠ .absent := by
  unfold State.replyStart; split <;> simp

/-- R17, R20: the last byte of an entry report, up to the hand-over of the freed entry. -/
theorem State.PageLaw.awaitReply (law : s.PageLaw) {e : EntryReport} {rest : List Report}
    (queue : s.reports.queue = .entry e :: rest) (taken : Nat) (outputs : PortOutputs) :
    ({ s with reports.queue := rest, reports.taken := taken, outputs := outputs } : State).awaitReply e.page |>.PageLaw := by
  obtain ⟨h, promoted, flight⟩ := State.pageLaw_iff.1 law
  generalize hu : State.awaitReply _ e.page = u
  have page : ∀ q, u.page q = if q = e.page then { s.page e.page with state := .awaiting, timer := s.replyStart }
      else s.page q := hu ▸ State.page_of_updPage rfl
  obtain ⟨stands, wasSending⟩ := h.awaited queue s.replyStart_ne page (hu ▸ rfl) (hu ▸ rfl) (hu ▸ rfl) (hu ▸ rfl) (hu ▸ rfl)
  have promoted' : u.Promoted := by subst hu; exact promoted
  refine State.pageLaw_iff.2 ⟨stands, promoted', flight.flown (fun q => ?_) (hu ▸ rfl)⟩
  refine (page q).symm ▸ ?_
  split
  · subst_vars; exact ⟨rfl, by simp [wasSending], by simp [wasSending]⟩
  · exact .refl _

theorem State.PageLaw.takeReportByte (law : s.PageLaw) : s.takeReportByte.PageLaw := by
  have handed {v : State} (h : v.PageLaw) : v.handFreed.PageLaw :=
    h.quiet (State.quiet_handFreed (State.pageLaw_iff.1 h).1.stalled)
  unfold State.takeReportByte
  split
  · exact law.quiet (.of_same rfl rfl rfl rfl rfl rfl)
  · split
    · exact law.quiet (.of_same rfl rfl rfl rfl rfl rfl)
    · rename_i r rest queue
      simp only
      split
      · exact law.quiet (.of_same rfl rfl rfl rfl rfl rfl)
      · apply handed
        cases r with
        | entry e => exact law.awaitReply queue _ _
        | attention | completion | status | eraseDone | start =>
          exact law.quiet (State.quiet_leaveQueue (fun _ => rfl) queue _ _)

/-! ### Headers -/

theorem State.inFlightTxn_of_state (h : s.interp.state ≠ .orders) : s.inFlightTxn = none := by
  simp [State.inFlightTxn, h]

/-- Without a transaction in flight no page is marked or LOADING. -/
theorem State.FlightLaw.unmarked (h : s.FlightLaw) (none_ : s.inFlightTxn = none) (p : PageNum) :
    (s.page p).inFlight = false ∧ (s.page p).state ≠ .loading := by
  constructor
  · rw [← Bool.not_eq_true, h.marked p]; simp [none_]
  · rw [Ne, h.loading p]; simp [none_]

theorem State.flightLaw_of_unnamed (names : ∀ t, s.inFlightTxn = some t → t.page = none)
    (unmarked : ∀ p, (s.page p).inFlight = false ∧ (s.page p).state ≠ .loading) : s.FlightLaw where
  marked p := by
    refine ⟨fun h => absurd h (by simp [unmarked p]), fun ⟨t, ht, hp⟩ => ?_⟩
    rw [names t ht] at hp; cases hp
  loading p := by
    refine ⟨fun h => absurd h (unmarked p).2, fun ⟨t, ht, _, hp⟩ => ?_⟩
    rw [names t ht] at hp; cases hp
  replied t p ht _ hp := by rw [names t ht] at hp; cases hp

/-- The interpreter's state and record change, and with them nothing that stands of the pages. -/
theorem State.Standing.interp (h : s.Standing) (i : InterpState) (r : Option Transaction) :
    State.Standing { s with interp.state := i, interp.txn := r } where
  pages p := ⟨(h.pages p).active, (h.pages p).ready, (h.pages p).entries, (h.pages p).timer, (h.pages p).sent,
    (h.pages p).marks⟩
  readyOnce := h.readyOnce
  noPage := h.noPage
  stalled := h.stalled

theorem State.PageLaw.judgedOff (law : s.PageLaw) (none_ : s.inFlightTxn = none) (h : s.JudgedOff u) : u.PageLaw := by
  obtain ⟨v, i, r, quiet, unnamed, rfl⟩ := h
  obtain ⟨stands, promoted, flight⟩ := State.pageLaw_iff.1 law
  have promoted' : v.Promoted := promoted.quiet quiet
  refine State.pageLaw_iff.2 ⟨(stands.quiet quiet).interp i r, promoted',
    State.flightLaw_of_unnamed (fun t ht => ?_) fun p => ?_⟩
  · by_cases hi : i = .orders
    · exact unnamed hi t (by simpa [State.inFlightTxn, hi] using ht)
    · simp [State.inFlightTxn, hi] at ht
  · have e := quiet.pages p
    show (v.page p).inFlight = false ∧ (v.page p).state ≠ .loading
    rw [e.inFlight, e.state]
    exact flight.unmarked none_ p

/-- R9: a LOAD needs a FREE page. -/
theorem Page.free_of_load {g : Page} {serial : Byte} (h : g.headerRefusal .load serial = none) : g.state = .free := by
  simpa [Page.headerRefusal] using h

/-- R12: a REOPEN and a CLOSE need an AWAITING page. -/
theorem Page.awaiting_of_reply {g : Page} {k : Kind} {serial : Byte} (h : g.headerRefusal k serial = none)
    (hk : k = .reopen ∨ k = .close) : g.state = .awaiting := by
  rcases hk with rfl | rfl <;>
  · simp only [Page.headerRefusal] at h
    by_contra other
    simp only [other, if_false] at h
    split at h <;> cases h

theorem State.PageLaw.acceptOnPage (law : s.PageLaw) (none_ : s.inFlightTxn = none) {t : Transaction} {k : Kind}
    {serial : Byte} (hk : t.kind = some k) (hp : t.page = some p) (ok : (s.page p).headerRefusal k serial = none) :
    (s.acceptOnPage t k p).PageLaw := by
  obtain ⟨h, promoted, flight⟩ := State.pageLaw_iff.1 law
  have stands := h.pages p
  have unmarked := flight.unmarked none_
  have page := State.page_of_updPage (s := s) (u := s.acceptOnPage t k p) (p := p) (f := fun g =>
    { g with inFlight := true, state := if k = .load then .loading else g.state }) rfl
  have flying : (s.acceptOnPage t k p).inFlightTxn = some t := rfl
  have active : (s.acceptOnPage t k p).active = s.active := rfl
  have ready : (s.acceptOnPage t k p).ready = s.ready := rfl
  have count : (s.acceptOnPage t k p).entryCount p = s.entryCount p := rfl
  have here : (s.acceptOnPage t k p).PageStands p := by
    by_cases load : k = .load
    · subst load
      have wasFree := Page.free_of_load ok
      exact
        { active := by simpa [active, page, wasFree] using stands.active
          ready := by simpa [ready, page, wasFree] using stands.ready
          entries := by simpa [count, page, wasFree] using stands.entries
          timer := by simpa [page, wasFree] using stands.timer
          sent := by simp [page]
          marks := by simpa [page] using stands.marks }
    · exact
        { active := by simpa [active, page, load] using stands.active
          ready := by simpa [ready, page, load] using stands.ready
          entries := by simpa [count, page, load] using stands.entries
          timer := by simpa [page, load] using stands.timer
          sent := by simpa [page, load] using stands.sent
          marks := by simpa [page] using stands.marks }
  refine State.pageLaw_iff.2 ⟨h.change p here (fun q e => ⟨by simp [page, e], .rfl, .rfl, rfl⟩) h.readyOnce h.noPage
    (fun _ => id), promoted, ⟨fun q => ?_, fun q => ?_, fun x q hx reply hq => ?_⟩⟩
  · by_cases e : q = p
    · simp [page, flying, hp, e]
    · simp [page, flying, hp, e, unmarked, Ne.symm e]
  · by_cases e : q = p
    · by_cases load : k = .load
      · subst load
        simp [page, flying, hp, hk, e]
      · simp [page, flying, hp, hk, e, unmarked, load]
    · simp [page, flying, hp, e, unmarked, Ne.symm e]
  · obtain rfl := Option.some.inj (flying.symm.trans hx)
    obtain rfl := Option.some.inj (hp.symm.trans hq)
    have kinds : k = .reopen ∨ k = .close := by simpa [hk] using reply
    have wasAwaiting := Page.awaiting_of_reply ok kinds
    rcases kinds with rfl | rfl <;> simp [page, wasAwaiting]

theorem State.PageLaw.judgeHeader (law : s.PageLaw) (hs : s.interp.state = .header) (t : Transaction) :
    (s.judgeHeader t).PageLaw := by
  have none_ : s.inFlightTxn = none := State.inFlightTxn_of_state (by simp [hs])
  rcases s.judgeHeader_cases t with ⟨k, p, hk, hp, ok, e⟩ | off
  · rw [e]; exact law.acceptOnPage none_ hk hp ok
  · exact law.judgedOff none_ off

/-! ### Ends of transactions -/

/-- Page Control between a transaction's effects and its close: at most the page it names is still marked, and none is
LOADING (R126, R127). -/
structure State.Ending (s : State) (named : Option PageNum) : Prop where
  stands : s.Standing
  promoted : s.Promoted
  marked : ∀ p, (s.page p).inFlight = true → named = some p
  loaded : ∀ p, (s.page p).state ≠ .loading

theorem State.Ending.quiet {named : Option PageNum} (h : s.Ending named) (q : s.Quiet u) : u.Ending named where
  stands := h.stands.quiet q
  promoted := h.promoted.quiet q
  marked p := by rw [(q.pages p).inFlight]; exact h.marked p
  loaded p := by rw [(q.pages p).state]; exact h.loaded p

/-- Promotion at the end of a transaction's effects. -/
theorem State.Standing.ending_promote {named : Option PageNum} (h : s.Standing)
    (marked : ∀ p, (s.page p).inFlight = true → named = some p) (loaded : ∀ p, (s.page p).state ≠ .loading) :
    s.promote.Ending named where
  stands := h.promote
  promoted := s.promoted_promote
  marked p := by rw [(State.flown_promote h p).inFlight]; exact marked p
  loaded p := by rw [Ne, (State.flown_promote h p).loading]; exact loaded p

/-- R8: the mark of the page that a transaction names is cleared. -/
theorem State.page_clearMark (s : State) (t : Transaction) (q : PageNum) :
    (s.clearMark t).page q = if t.page = some q then { s.page q with inFlight := false } else s.page q := by
  unfold State.clearMark
  cases h : t.page with
  | none => simp
  | some p =>
    simp only [State.page_updPage, Option.some.injEq, eq_comm (a := q)]
    split
    · subst_vars; rfl
    · rfl

theorem State.clearMark_frame (s : State) (t : Transaction) : ∃ pages, s.clearMark t = { s with pages := pages } := by
  unfold State.clearMark
  split <;> exact ⟨_, rfl⟩

theorem State.closed_frame (s : State) (t : Transaction) (next : InterpState) :
    ∃ pages, s.closed t next = { s with pages := pages, interp.txn := none, interp.state := next } := by
  obtain ⟨pages, e⟩ := State.clearMark_frame { s with interp.txn := none, interp.state := next } t
  exact ⟨pages, e⟩

/-- R126, R127: the close of a transaction brings back the whole law. -/
theorem State.Ending.closed {t : Transaction} (h : s.Ending t.page) (next : InterpState) : (s.closed t next).PageLaw := by
  have page (q : PageNum) : (s.closed t next).page q =
      if t.page = some q then { s.page q with inFlight := false } else s.page q := State.page_clearMark _ t q
  have unmarked (q : PageNum) : ((s.closed t next).page q).inFlight = false := by
    rw [page]
    split
    · rfl
    · simpa using fun m => ‹¬t.page = some q› (h.marked q m)
  have same (q : PageNum) : ((s.closed t next).page q).state = (s.page q).state ∧
      ((s.closed t next).page q).timer = (s.page q).timer ∧ ((s.closed t next).page q).overdue = (s.page q).overdue ∧
      ((s.closed t next).page q).unsent = (s.page q).unsent := by
    rw [page]; split <;> exact ⟨rfl, rfl, rfl, rfl⟩
  obtain ⟨pages, frame⟩ := s.closed_frame t next
  have noTxn : (s.closed t next).inFlightTxn = none := by simp [frame, State.inFlightTxn]
  have stands : (s.closed t next).Standing :=
    { pages := fun q => (h.stands.pages q).congr (same q).1 (by rw [(same q).2.1]) (same q).2.2.1 (same q).2.2.2
        (by rw [frame]) (by rw [frame]) (by rw [frame]; rfl)
      readyOnce := by rw [frame]; exact h.stands.readyOnce
      noPage := by rw [frame]; exact h.stands.noPage
      stalled := by rw [frame]; exact h.stands.stalled }
  refine State.pageLaw_iff.2 ⟨stands, ?_, State.flightLaw_of_unnamed (by simp [noTxn])
    fun q => ⟨unmarked q, (same q).1 ▸ h.loaded q⟩⟩
  rw [frame]; exact h.promoted

/-! ### The effects of an end -/

/-- The flight law read off a header in flight. -/
theorem State.FlightLaw.named {t : Transaction} (h : s.FlightLaw) (flying : s.flyingHeader = some t.header) :
    (∀ p, (s.page p).inFlight = true ↔ t.page = some p) ∧
    (∀ p, (s.page p).state = .loading ↔ t.kind = some .load ∧ t.page = some p) ∧
    ∀ p, t.kind = some .reopen ∨ t.kind = some .close → t.page = some p → (s.page p).state = .awaiting := by
  obtain ⟨x, hx, e⟩ := Option.map_eq_some_iff.1 flying
  rw [← Transaction.kind_congr e, ← Transaction.page_congr e]
  exact ⟨fun p => by simp [h.marked p, hx], fun p => by simp [h.loading p, hx], fun p => h.replied x p hx⟩

/-- R2: what stands of the pages once a LOADING or AWAITING page has been released. -/
theorem State.Standing.released (h : s.Standing) (was : (s.page p).state = .loading ∨ (s.page p).state = .awaiting) :
    (s.updPage p (·.released)).Standing := by
  have stands := h.pages p
  have page := State.page_updPage s p
  have here : (s.updPage p (·.released)).PageStands p :=
    { active := by rcases was with was | was <;> simpa [Page.released, Page.blank, was] using stands.active
      ready := by rcases was with was | was <;> simpa [Page.released, Page.blank, was] using stands.ready
      entries := by
        have := stands.entries
        rcases was with was | was <;> simpa [State.entryCount, Page.released, Page.blank, was] using this
      timer := by simp [Page.released, Page.blank]
      sent := by simp [Page.released, Page.blank]
      marks := by simp [Page.released, Page.blank] }
  exact h.change p here (fun q e => ⟨by simp [page, e], .rfl, .rfl, rfl⟩) h.readyOnce h.noPage (fun _ => id)

theorem State.Ending.released (law : s.PageLaw) {t : Transaction} (flying : s.flyingHeader = some t.header)
    (hp : t.page = some p) (hk : t.kind = some .load ∨ t.kind = some .close) :
    (s.updPage p (·.released)).Ending t.page := by
  obtain ⟨h, promoted, flight⟩ := State.pageLaw_iff.1 law
  obtain ⟨marked, loading, replied⟩ := flight.named flying
  have page := State.page_updPage s p
  refine ⟨h.released ?_, promoted, fun q => ?_, fun q => ?_⟩
  · rcases hk with hk | hk
    · exact .inl ((loading p).2 ⟨hk, hp⟩)
    · exact .inr (replied p (.inr hk) hp)
  · rw [page]
    split
    · rintro -; subst_vars; exact hp
    · exact (marked q).1
  · rw [page]
    split
    · simp [Page.released, Page.blank]
    · rename_i ne
      rw [Ne, loading q]
      rintro ⟨-, hq⟩
      exact ne (Option.some.inj (hq.symm.trans hp))

/-- R9: what stands of the pages at the END of a LOAD, before promotion. -/
theorem State.Standing.loaded (h : s.Standing) (wasLoading : (s.page p).state = .loading)
    (page : ∀ q, u.page q = if q = p then { s.page p with state := .ready } else s.page q)
    (ready : u.ready = s.ready ++ [p]) (active : u.active = s.active) (noPage : u.noPage = s.noPage)
    (interp : u.interp = s.interp) (count : ∀ q, u.entryCount q = s.entryCount q) : u.Standing := by
  have stands := h.pages p
  have fresh : p ∉ s.ready := by simp [stands.ready, wasLoading]
  have here : u.PageStands p :=
    { active := by simpa [active, page, wasLoading] using stands.active
      ready := by simp [ready, page]
      entries := by simpa [count, page, wasLoading] using stands.entries
      timer := by simpa [page, wasLoading] using stands.timer
      sent := by simp [page]
      marks := by simpa [page] using stands.marks }
  refine h.change p here (fun q e => ⟨by simp [page, e], by rw [active], by simp [ready, e], count q⟩) ?_
    (by rw [active, noPage]; exact h.noPage) (by simp [interp])
  rw [ready, ← List.concat_eq_append]; exact h.readyOnce.concat fresh

theorem State.quiet_applySetup (s : State) (a b c : Byte) : s.Quiet (s.applySetup a b c) :=
  ⟨fun _ => .refl _, rfl, rfl, rfl, rfl, fun _ => rfl, fun _ => .inl⟩

@[simp] theorem State.refuseHeld_reports (s : State) : s.refuseHeld.reports = s.reports := by
  unfold State.refuseHeld; split <;> rfl

@[simp] theorem State.restartEnd_page (s : State) (q : PageNum) : s.restartEnd.page q = .blank := by
  simp [State.restartEnd, State.page]

@[simp] theorem State.restartEnd_interp (s : State) : s.restartEnd.interp = s.interp := by
  simp [State.restartEnd, State.clearReports]

theorem State.restartEnd_queue (s : State) : s.restartEnd.reports.queue = [] := by
  simp [State.restartEnd, State.clearReports]

/-- What stands of six blank pages: none is in the queue, ACTIVE, or named by a report. -/
theorem State.standing_of_blank (page : ∀ q, u.page q = .blank) (ready : u.ready = []) (active : u.active = none)
    (count : ∀ q, u.entryCount q = 0) (stalled : ∀ r, u.interp.stalled = some r → r.notEntry) : u.Standing where
  pages q := ⟨by simp [active, page, Page.blank], by simp [ready, page, Page.blank], by simp [count, page, Page.blank],
    by simp [page, Page.blank], by simp [page, Page.blank], by simp [page, Page.blank]⟩
  readyOnce := ready ▸ List.nodup_nil
  noPage e := absurd active e
  stalled := stalled

/-- R15: RESTART leaves six blank pages and no reports. -/
theorem State.Standing.restartEnd (h : s.Standing) (named : Option PageNum) : s.restartEnd.Ending named where
  stands := State.standing_of_blank s.restartEnd_page rfl rfl
    (fun q => by simp [State.entryCount, s.restartEnd_queue]) (by simpa using h.stalled)
  promoted e := absurd rfl e
  marked q := by simp [Page.blank]
  loaded q := by simp [Page.blank]

/-- Without a LOAD the effects of an end start from pages of which none is LOADING. -/
theorem State.PageLaw.ending (law : s.PageLaw) {t : Transaction} (flying : s.flyingHeader = some t.header)
    (noLoad : ∀ p, t.kind = some .load → t.page = some p → False) : s.Ending t.page := by
  obtain ⟨h, promoted, flight⟩ := State.pageLaw_iff.1 law
  obtain ⟨marked, loading, -⟩ := flight.named flying
  exact ⟨h, promoted, fun p => (marked p).1, fun p => by rw [Ne, loading p]; exact fun ⟨hk, hp⟩ => noLoad p hk hp⟩

/-- R9: the END of a LOAD. -/
theorem State.PageLaw.ending_loadEnd (law : s.PageLaw) {t : Transaction} (flying : s.flyingHeader = some t.header)
    (hk : t.kind = some .load) (hp : t.page = some p) : (s.loadEnd p).Ending t.page := by
  obtain ⟨h, -, flight⟩ := State.pageLaw_iff.1 law
  obtain ⟨marked, loading, -⟩ := flight.named flying
  have page := State.page_of_updPage (s := s) (p := p) (f := fun g => { g with state := .ready }) rfl
  refine State.Standing.ending_promote (h.loaded ((loading p).2 ⟨hk, hp⟩) page rfl rfl rfl rfl fun _ => rfl)
    (fun q => ?_) (fun q => ?_)
  · refine (page q).symm ▸ ?_
    split
    · rintro -; subst_vars; exact hp
    · exact (marked q).1
  · refine (page q).symm ▸ ?_
    split
    · simp
    · rename_i ne
      rw [Ne, loading q]
      exact fun ⟨_, hq⟩ => ne (Option.some.inj (hq.symm.trans hp))

/-- R13: the END of a REOPEN. -/
theorem State.PageLaw.ending_reopen (law : s.PageLaw) {t : Transaction} (flying : s.flyingHeader = some t.header)
    (hk : t.kind = some .reopen) (hp : t.page = some p) : (s.returnToHead p id).Ending t.page := by
  obtain ⟨h, -, flight⟩ := State.pageLaw_iff.1 law
  obtain ⟨marked, loading, replied⟩ := flight.named flying
  have page := State.page_of_updPage (s := s) (p := p) (f := fun g => { g with state := .ready, timer := .absent }) rfl
  refine State.Standing.ending_promote
    (h.returned (replied p (.inl hk) hp) page rfl rfl rfl rfl rfl rfl rfl fun _ => rfl) (fun q => ?_) (fun q => ?_)
  · refine (page q).symm ▸ ?_
    split
    · rintro -; subst_vars; exact hp
    · exact (marked q).1
  · refine (page q).symm ▸ ?_
    split
    · simp
    · simp [loading q, hk]

/-- R126 step 1: the effects of an END. -/
theorem State.PageLaw.ending_endEffects (law : s.PageLaw) {t : Transaction} (flying : s.flyingHeader = some t.header) :
    (s.endEffects t).Ending t.page := by
  unfold State.endEffects
  simp only
  split
  case h_1 p hk hp => exact law.ending_loadEnd flying hk hp
  case h_2 p hk hp => exact law.ending_reopen flying hk hp
  case h_3 p hk hp => exact State.Ending.released law flying hp (.inr hk)
  case h_4 hk => exact (law.ending flying (by simp [hk])).quiet (s.quiet_applySetup _ _ _)
  case h_5 => exact (State.pageLaw_iff.1 law).1.restartEnd _
  case h_6 hk =>
    have before := law.ending flying (by simp [hk])
    split
    · exact before.quiet (s.quiet_updSlot _ _)
    · exact before
  case h_7 => exact law.ending flying ‹∀ p, t.kind = some .load → t.page = some p → False›

/-- R127 step 1: the effects of an abort. -/
theorem State.PageLaw.ending_abortEffects (law : s.PageLaw) {t : Transaction} (flying : s.flyingHeader = some t.header) :
    (s.abortEffects t).Ending t.page := by
  unfold State.abortEffects
  split
  case h_1 p hk hp => exact State.Ending.released law flying hp (.inl hk)
  case h_2 hk =>
    have before := law.ending flying (by simp [hk])
    split
    · exact before.quiet (s.quiet_updSlot _ _)
    · exact before
  case h_3 => exact law.ending flying ‹∀ p, t.kind = some .load → t.page = some p → False›

theorem State.notEntry_endReport (s : State) (t : Transaction) : (s.endReport t).notEntry := by
  unfold State.endReport
  split <;> exact fun _ => rfl

/-! ### The stream reset -/

/-- R157 step 1: the abort effects of the transaction that a stream reset cuts short, if there is one. -/
theorem State.PageLaw.ending_cutShort (law : s.PageLaw) : s.cutShort.Ending (s.inFlightTxn.bind (·.page)) := by
  have unstalled (v : State) : v.Quiet { v with interp.stalled := none } :=
    ⟨fun _ => .refl _, rfl, rfl, rfl, rfl, fun _ => rfl, nofun⟩
  unfold State.cutShort
  cases ht : s.inFlightTxn with
  | some t => exact (law.ending_abortEffects (by simp [State.flyingHeader, ht])).quiet (unstalled _)
  | none =>
    obtain ⟨h, promoted, flight⟩ := State.pageLaw_iff.1 law
    have unmarked := flight.unmarked ht
    exact State.Ending.quiet ⟨h, promoted, fun p => by simp [unmarked p], fun p => (unmarked p).2⟩ (unstalled s)

theorem State.page_foldl_updPage (f : Page → Page) {ps : List PageNum} (once : ps.Nodup) (s : State) (q : PageNum) :
    (ps.foldl (fun s p => s.updPage p f) s).page q = if q ∈ ps then f (s.page q) else s.page q := by
  induction ps generalizing s with
  | nil => simp
  | cons p ps ih =>
    obtain ⟨fresh, once⟩ := List.nodup_cons.1 once
    rw [List.foldl_cons, ih once, State.page_updPage]
    by_cases e : q = p
    · subst e; simp [fresh]
    · simp [e]

theorem mem_allPages (p : PageNum) : p ∈ allPages := by revert p; decide

/-- The pages that a stream reset finds SENDING, ascending (R5, R18). -/
def State.sendingPages (s : State) : List PageNum := allPages.filter fun p => (s.page p).state = .sending

theorem State.mem_sendingPages {q : PageNum} : q ∈ s.sendingPages ↔ (s.page q).state = .sending := by
  simp [State.sendingPages, mem_allPages]

theorem State.nodup_sendingPages (s : State) : s.sendingPages.Nodup := List.Nodup.filter _ (by decide)

theorem Page.unsentReturn_of_ne {g : Page} (h : g.state ≠ .sending) : g.unsentReturn = g := by
  simp [Page.unsentReturn, h]

theorem Page.unsentReturn_of_sending {g : Page} (h : g.state = .sending) :
    g.unsentReturn = { g with state := .ready, unsent := true } := by
  simp [Page.unsentReturn, h]

/-- R5, R18: what stands of the pages once the report queue has been emptied and every SENDING page has returned to the
head of the ready queue, before promotion. -/
theorem State.Standing.unsentReturned (h : s.Standing) (page : ∀ q, u.page q = (s.page q).unsentReturn)
    (ready : u.ready = s.sendingPages ++ s.ready) (active : u.active = s.active) (noPage : u.noPage = s.noPage)
    (interp : u.interp = s.interp) (count : ∀ q, u.entryCount q = 0) : u.Standing where
  pages q := by
    have stands := h.pages q
    have waits : q ∈ u.ready ↔ (s.page q).state = .sending ∨ q ∈ s.ready := by
      rw [ready, List.mem_append, State.mem_sendingPages]
    by_cases was : (s.page q).state = .sending
    · have now : u.page q = { s.page q with state := .ready, unsent := true } :=
        (page q).trans (Page.unsentReturn_of_sending was)
      exact
        { active := by simpa [active, now, was] using stands.active
          ready := by simp [waits, now, was]
          entries := by simp [count, now]
          timer := by simpa [now, was] using stands.timer
          sent := by simp [now]
          marks := by simp [now, stands.sent (.inl was)] }
    · have now : u.page q = s.page q := (page q).trans (Page.unsentReturn_of_ne was)
      exact stands.congr (by rw [now]) (by rw [now]) (by rw [now]) (by rw [now]) (by rw [active]) (by simp [waits, was])
        (by rw [count, stands.entries, if_neg was])
  readyOnce := by
    rw [ready]
    refine List.nodup_append.2 ⟨s.nodup_sendingPages, h.readyOnce, fun p hp q hq => ?_⟩
    rintro rfl
    have isReady := (h.pages p).ready.1 hq
    rw [State.mem_sendingPages.1 hp] at isReady
    cases isReady
  noPage := by rw [active, noPage]; exact h.noPage
  stalled := by rw [interp]; exact h.stalled

/-- R5, R18: the SENDING pages return to the head of the ready queue, and promotion follows. -/
theorem State.returnSending_eq (s : State) : ∃ pages,
    s.returnSending = State.promote { s with pages := pages, ready := s.sendingPages ++ s.ready } ∧
      ∀ q, State.page { s with pages := pages } q = (s.page q).unsentReturn := by
  obtain ⟨pages, frame⟩ := State.foldl_updPage_eq Page.unsentReturn s.sendingPages s
  refine ⟨pages, ?_, fun q => ?_⟩
  · unfold State.returnSending
    simp only
    rw [← State.sendingPages, frame]
  · rw [← frame, State.page_foldl_updPage _ s.nodup_sendingPages]
    split
    · rfl
    · rename_i other
      exact (Page.unsentReturn_of_ne fun was => other (State.mem_sendingPages.2 was)).symm

/-- R5, R18, R157 steps 2 and 3. -/
theorem State.Ending.returnSending {named : Option PageNum} (h : s.Ending named) :
    s.emptyReports.returnSending.Ending named := by
  obtain ⟨pages, frame, page⟩ := s.emptyReports.returnSending_eq
  rw [frame]
  refine State.Standing.ending_promote (h.stands.unsentReturned page rfl rfl rfl rfl fun _ => rfl) (fun q => ?_) fun q => ?_
  · refine (page q).symm ▸ ?_
    unfold Page.unsentReturn
    split <;> exact h.marked q
  · refine (page q).symm ▸ ?_
    unfold Page.unsentReturn
    split
    · simp
    · exact h.loaded q

/-- R157 steps 1 to 4. -/
theorem State.PageLaw.ending_streamEmptied (law : s.PageLaw) : s.streamEmptied.Ending (s.inFlightTxn.bind (·.page)) := by
  have emptied := law.ending_cutShort.returnSending
  exact emptied.quiet (State.quiet_handFreedTimes 8 emptied.stands.stalled)

/-- R157 step 5 with no transaction to cut short. -/
theorem State.Ending.idle (h : s.Ending none) :
    State.PageLaw { s with interp.txn := none, interp.state := .between } := by
  have promoted := h.promoted
  refine State.pageLaw_iff.2 ⟨h.stands.interp .between none, promoted, State.flightLaw_of_unnamed nofun fun p => ?_⟩
  have unmarked : (s.page p).inFlight = false := by simpa using fun m => h.marked p m
  exact ⟨unmarked, h.loaded p⟩

/-! ### The reset line -/

/-- The law of Page Control over six blank pages with no transaction in flight. -/
theorem State.pageLaw_of_blank (page : ∀ q, u.page q = .blank) (ready : u.ready = []) (active : u.active = none)
    (count : ∀ q, u.entryCount q = 0) (stalled : u.interp.stalled = none) (noTxn : u.inFlightTxn = none) : u.PageLaw :=
  State.pageLaw_iff.2 ⟨State.standing_of_blank page ready active count (by simp [stalled]), fun e => absurd ready e,
    State.flightLaw_of_unnamed (by simp [noTxn]) fun p => by simp [page, Page.blank]⟩

@[simp] theorem State.lineReset_page (s : State) (q : PageNum) : s.lineReset.page q = .blank := by
  simp [State.lineReset, State.reset, State.page]

/-- R3: six blank pages, and START alone in the report queue. -/
theorem State.pageLaw_lineReset (s : State) : s.lineReset.PageLaw :=
  State.pageLaw_of_blank s.lineReset_page rfl rfl (fun _ => rfl) rfl rfl

/-! ### Every step -/

theorem State.KeyEvent.pageLaw (h : s.KeyEvent u) (law : s.PageLaw) : u.PageLaw := by
  cases h with
  | quiet q => exact law.quiet q
  | noForm ha n =>
    exact ⟨law.active, law.readyOnce, law.ready, law.promoted, fun e => absurd ha e, law.marked, law.loading, law.replied,
      law.entries, law.stalled, law.timer, law.sent, law.marks⟩
  | send ha id => exact law.acceptSend ha id
  | park ha => exact law.parkKey ha

/-- Every event keeps the law of Page Control. -/
theorem State.Event.pageLaw (h : s.Event u) (law : s.PageLaw) : u.PageLaw := by
  cases h with
  | key h => exact h.pageLaw law
  | replyExpiry p => exact law.expireReply p
  | reportByte => exact law.takeReportByte
  | header hs t => exact law.judgeHeader hs t
  | ended flying =>
    exact ((law.ending_endEffects flying).quiet (State.quiet_answer (State.notEntry_endReport _ _))).closed .between
  | aborted flying status detail next =>
    exact ((law.ending_abortEffects flying).quiet (State.quiet_answer (Report.notEntry_completion _ _ _))).closed next
  | cutShort ht =>
    have ending := law.ending_streamEmptied
    rw [ht] at ending
    exact ending.closed .between
  | emptied ht =>
    have ending := law.ending_streamEmptied
    rw [ht] at ending
    exact ending.idle
  | lineReset => exact s.pageLaw_lineReset

end moves

/-- Settles O6: every step is a run of events, and every event keeps the law of Page Control. -/
theorem stepKeepsPageLaw : Obligations.StepKeepsPageLaw := by
  intro s t law h
  have run : s.Reaches t := State.reaches_of_step h
  clear h
  induction run with
  | refl => exact law
  | tail _ event ih => exact event.pageLaw ih

end Sys2Proof.Machine

/-! # Headers that name a page

A header of a kind that names a page is judged against its page's state, serial and overdue mark. -/

namespace Sys2Proof.Machine

theorem pageOfByte_byteOf (p : PageNum) : pageOfByte (byteOf p.val) = some p := by revert p; decide

@[simp] theorem kindOfByte_code (k : Kind) : kindOfByte k.code = some k := by cases k <;> decide

section headers

variable {s : State} {p : PageNum} {k : Kind} {tag : Byte} {operands : List Byte}

/-- The header of a kind that names page p. -/
def pageHeader (k : Kind) (p : PageNum) (tag : Byte) (operands : List Byte) : List Byte :=
  k.code :: byteOf p.val :: tag :: operands

theorem Transaction.kind_pageHeader : (Transaction.ofHeader (pageHeader k p tag operands)).kind = some k := by
  simp [Transaction.kind, Transaction.ofHeader, pageHeader]

theorem Transaction.page_pageHeader (hk : k.namesPage = true) :
    (Transaction.ofHeader (pageHeader k p tag operands)).page = some p := by
  rw [Transaction.page, Transaction.kind_pageHeader]
  simp [Transaction.ofHeader, pageHeader, hk, pageOfByte_byteOf]

/-- R123: a header that names a page is judged by that page alone. -/
theorem State.judgeHeader_page (hk : k.namesPage = true) :
    s.judgeHeader (.ofHeader (pageHeader k p tag operands)) =
      match (s.page p).headerRefusal k (operands.getD 0 0x00#8) with
      | some status => s.refuse (.ofHeader (pageHeader k p tag operands)) status 0
      | none => s.acceptOnPage (.ofHeader (pageHeader k p tag operands)) k p := by
  unfold State.judgeHeader
  simp only [Transaction.kind_pageHeader, Transaction.page_pageHeader hk]
  cases k with
  | load | amend | post | reopen | close => rfl
  | _ => cases hk

/-- R122: the number of header operands of a kind that names a page. -/
def replyOperands : Kind → Nat
  | .reopen | .close => 1
  | _ => 0

/-- R122: a page header is complete with its last byte. -/
theorem headerComplete_pageHeader (hk : k.namesPage = true) (hl : operands.length = replyOperands k) :
    headerComplete (pageHeader k p tag operands) = true ∧
      ∀ n, 1 ≤ n → n < (pageHeader k p tag operands).length →
        headerComplete ((pageHeader k p tag operands).take n) = false := by
  have short : ∀ n, 1 ≤ n → n < 3 → headerComplete ((pageHeader k p tag operands).take n) = false := by
    intro n h1 h3
    obtain rfl | rfl : n = 1 ∨ n = 2 := by omega
    all_goals rfl
  cases k with
  | load | amend | post =>
    obtain rfl := List.length_eq_zero_iff.1 hl
    exact ⟨rfl, fun n h1 h2 => short n h1 h2⟩
  | reopen | close =>
    obtain ⟨serial, rfl⟩ := List.length_eq_one_iff.1 hl
    refine ⟨rfl, fun n h1 h2 => ?_⟩
    obtain h | rfl : n < 3 ∨ n = 3 := by simp [pageHeader] at h2; omega
    · exact short n h1 h
    · rfl
  | _ => cases hk

theorem State.takeStream_pageHeader (h : s.headerDue) (hk : k.namesPage = true) (hl : operands.length = replyOperands k) :
    s.takeStream (pageHeader k p tag operands) =
      (s.withTxn (.ofHeader (pageHeader k p tag operands).dropLast)).judgeHeader (.ofHeader (pageHeader k p tag operands)) :=
  have complete := headerComplete_pageHeader hk hl
  State.takeStream_header s _ h complete.2 complete.1

/-- R123: an accepted header marks its page; a LOAD makes it LOADING. -/
theorem State.takeStream_accepted (h : s.headerDue) (hk : k.namesPage = true) (hl : operands.length = replyOperands k)
    (ok : (s.page p).headerRefusal k (operands.getD 0 0x00#8) = none) :
    s.takeStream (pageHeader k p tag operands) =
      { s.setPage p { s.page p with inFlight := true, state := if k = .load then .loading else (s.page p).state } with
        interp := { s.interp with
          state := .orders
          txn := some (Transaction.ofHeader (pageHeader k p tag operands)) } } := by
  rw [State.takeStream_pageHeader h hk hl, State.judgeHeader_page hk]
  have ok' : ((s.withTxn (.ofHeader (pageHeader k p tag operands).dropLast)).page p).headerRefusal k
    (operands.getD 0 0x00#8) = none := ok
  rw [ok']
  rfl

/-- R123: a refused header changes nothing but the interpreter and its answer. -/
theorem State.takeStream_refused {status : Status} (h : s.headerDue) (hk : k.namesPage = true)
    (hl : operands.length = replyOperands k)
    (refused : (s.page p).headerRefusal k (operands.getD 0 0x00#8) = some status) :
    s.refusedTo (s.takeStream (pageHeader k p tag operands)) tag status 0 := by
  rw [State.takeStream_pageHeader h hk hl, State.judgeHeader_page hk]
  have refused' : ((s.withTxn (.ofHeader (pageHeader k p tag operands).dropLast)).page p).headerRefusal k
    (operands.getD 0 0x00#8) = some status := refused
  rw [refused']
  exact State.refusedTo_refuse s _ _ status 0

end headers

/-- Settles O16: R9 makes the LOAD's check the page's being FREE. -/
theorem loadHeaderNeedsFreePage : Obligations.LoadHeaderNeedsFreePage := by
  intro s p tag h
  constructor
  · intro free
    exact congrArg Host.Outcome.next
      (State.takeStream_accepted (k := .load) (operands := []) h rfl rfl (by simp [Page.headerRefusal, free]))
  · intro other
    exact ⟨_, rfl, State.takeStream_refused (k := .load) (operands := []) h rfl rfl (by simp [Page.headerRefusal, other])⟩

/-- Settles O17: R10 and R11 give the page states that an AMEND and a POST need. -/
theorem amendAndPostHeaders : Obligations.AmendAndPostHeaders := by
  intro s p tag h
  refine ⟨fun state => ?_, fun state => ⟨_, rfl, ?_⟩, fun state => ?_, fun state => ⟨_, rfl, ?_⟩⟩
  · exact congrArg Host.Outcome.next
      (State.takeStream_accepted (k := .amend) (operands := []) h rfl rfl (if_pos state))
  · refine State.takeStream_refused (k := .amend) (operands := []) h rfl rfl (if_neg ?_)
    rcases state with e | e | e <;> simp [e]
  · exact congrArg Host.Outcome.next
      (State.takeStream_accepted (k := .post) (operands := []) h rfl rfl (if_neg state))
  · exact State.takeStream_refused (k := .post) (operands := []) h rfl rfl (if_pos state)

/-- R12: the four rows that decide a REOPEN or CLOSE header. -/
theorem Page.headerRefusal_reply (g : Page) {k : Kind} (hk : k = .reopen ∨ k = .close) (serial : Byte) :
    g.headerRefusal k serial =
      if g.state = .awaiting then (if serial = g.serial then none else some .stale)
      else if g.overdue then some .late else some .state := by
  rcases hk with rfl | rfl <;> rfl

/-- Settles O18: R12's rows are the branches of the check of a reply's header. -/
theorem replyHeaderMatchesSerial : Obligations.ReplyHeaderMatchesSerial := by
  intro s p tag serial kind c h hc
  obtain ⟨k, hk, rfl, sent⟩ : ∃ k : Kind, (k = .reopen ∨ k = .close) ∧ kind = k.code ∧
      exec c s = .next (s.takeStream (pageHeader k p tag [serial])) := by
    rcases hc with ⟨rfl, rfl⟩ | ⟨rfl, rfl⟩
    · exact ⟨.reopen, .inl rfl, rfl, rfl⟩
    · exact ⟨.close, .inr rfl, rfl, rfl⟩
  have named : k.namesPage = true := by rcases hk with rfl | rfl <;> rfl
  have counted : [serial].length = replyOperands k := by rcases hk with rfl | rfl <;> rfl
  have notLoad : k ≠ .load := by rcases hk with rfl | rfl <;> simp
  have row := (s.page p).headerRefusal_reply hk serial
  rw [sent]
  refine ⟨fun awaiting same => ?_, fun awaiting other => ⟨_, rfl, ?_⟩, fun state overdue => ⟨_, rfl, ?_⟩,
    fun state overdue => ⟨_, rfl, ?_⟩⟩
  · rw [State.takeStream_accepted h named counted (row.trans (by simp [awaiting, same])), if_neg notLoad]
    rfl
  · exact State.takeStream_refused h named counted (row.trans (by simp [awaiting, other]))
  · exact State.takeStream_refused h named counted (row.trans (by simp [state, overdue]))
  · exact State.takeStream_refused h named counted (row.trans (by simp [state, overdue]))

end Sys2Proof.Machine

/-! # The reset line -/

namespace Sys2Proof.Machine

/-! ## The slots -/

theorem State.slot_foldl_updSlot (f : Slot → Slot) {ns : List SlotNum} (once : ns.Nodup) (s : State) (n : SlotNum) :
    (ns.foldl (fun s n => s.updSlot n f) s).slot n = if n ∈ ns then f (s.slot n) else s.slot n := by
  induction ns generalizing s with
  | nil => simp
  | cons m ns ih =>
    obtain ⟨fresh, once⟩ := List.nodup_cons.1 once
    rw [List.foldl_cons, ih once, State.slot_updSlot]
    by_cases e : n = m
    · subst e; simp [fresh]
    · simp [e]

/-- R174: the reset line settles every slot. -/
theorem State.slot_lineReset (s : State) (n : SlotNum) : s.lineReset.slot n = (s.slot n).settled := by
  have settled : s.settleSlots.slot n = (s.slot n).settled := by
    have folded := State.slot_foldl_updSlot Slot.settled (List.nodup_finRange 24) s n
    rwa [if_pos (List.mem_finRange n)] at folded
  exact settled

/-- R174: settling keeps content, used bytes and label, and leaves a kept state. -/
theorem Slot.settled_eq (slot : Slot) : slot.settled = { slot with state :=
    match slot.state with
    | .blank => .blank
    | .filled => .filled
    | .failed | .recording | .erasing | .held => .failed
    | .queued .blank => .blank
    | .queued .filled => .filled
    | .queued .failed => .failed } := by
  obtain ⟨state, content, used, label⟩ := slot
  cases state with
  | queued prior => cases prior <;> rfl
  | _ => rfl

/-- R155: the report START is its kind byte and an empty body. -/
theorem State.reportBytes_start (s : State) : s.reportBytes .start = [0x42#8, 0x00#8, 0x00#8] := by
  simp [State.reportBytes, State.reportBody, Report.kindByte, twoBytes, byteOf]

/-- Settles O11: the reset line's state is written out, and R174 settles each slot. -/
theorem lineResetSettlesEverything : Obligations.LineResetSettlesEverything := by
  intro s
  refine ⟨s.lineReset, rfl, s.lineReset_page, rfl, rfl, rfl, rfl, rfl, rfl, rfl,
    State.reportBytes_start _, rfl, fun n => ?_⟩
  rw [State.slot_lineReset, Slot.settled_eq]
  exact ⟨rfl, rfl, rfl, rfl⟩

/-! ## The laws after the reset line -/

@[simp] theorem State.reset_page (p : PageNum) : State.reset.page p = .blank := by simp [State.reset, State.page]

@[simp] theorem State.reset_slot (n : SlotNum) : State.reset.slot n = .new := by simp [State.reset, State.slot]

theorem State.cellLaw_reset : State.reset.CellLaw := fun p => by
  rw [State.reset_page]; exact Cells.legal_nil

theorem State.reportLaw_reset : State.reset.ReportLaw where
  bound := by decide
  waiting _ := ⟨rfl, rfl, fun p => by rw [State.reset_page]; rfl⟩
  taken := by
    show 0 < (State.reset.reportBytes .start).length
    rw [State.reportBytes_start]; decide

theorem State.pageLaw_reset : State.reset.PageLaw :=
  State.pageLaw_of_blank State.reset_page rfl rfl (fun _ => rfl) rfl rfl

theorem Page.fieldLaw_blank : Page.blank.FieldLaw := by
  constructor <;> simp [Page.blank]

theorem State.fieldLaw_reset : State.reset.FieldLaw where
  page p := by rw [State.reset_page]; exact Page.fieldLaw_blank
  pool := by decide

theorem Page.chainLaw_blank : Page.blank.ChainLaw := by
  constructor <;> simp [Page.blank]

theorem State.chainLaw_reset : State.reset.ChainLaw := fun p => by
  rw [State.reset_page]; exact Page.chainLaw_blank

theorem State.inputLaw_reset : State.reset.InputLaw := by
  constructor <;> simp [State.reset]

theorem State.eraseLaw_reset : State.reset.EraseLaw where
  batch := by decide
  inBatch n := by simp [Slot.new, SlotState.inEraseWork]
  erasing n := by rw [State.reset_slot]; simp [Slot.new, State.reset, EraseUnit.idle]
  held n := by rw [State.reset_slot]; simp [Slot.new, State.reset, EraseUnit.idle]
  idle _ := ⟨rfl, rfl, rfl⟩
  gathering := nofun
  window := by decide
  working := by decide
  paused := nofun
  attempts := by decide
  result := by simp [State.reset, EraseUnit.idle]
  used n := by simp [Slot.new]
  recording n := by rw [State.reset_slot]; simp [Slot.new, State.reset, State.inFlightTxn]

/-- Settles O3, law by law. -/
theorem lawsHoldAtReset : Obligations.LawsHoldAtReset :=
  ⟨State.cellLaw_reset, State.reportLaw_reset, State.pageLaw_reset, State.fieldLaw_reset, State.chainLaw_reset,
    State.inputLaw_reset, State.eraseLaw_reset⟩

end Sys2Proof.Machine

/-! # END

R126: the effects of the kind, the answer, and the close; with nothing held the close ends there. -/

namespace Sys2Proof.Machine

/-! ## What END comes to -/

/-- R126: the byte 03h in the order-code position is END. -/
theorem exec_endTransaction {s : State} {t : Transaction} {k : Kind} (h : s.orderDue t k) :
    exec .endTransaction s = .next (s.reachEnd t) := by
  obtain ⟨hs, ht, -, ho, hf⟩ := h
  show Host.Outcome.next (s.takeStream [0x03#8]) = _
  simp [State.takeStream_cons, State.takeStream_nil, State.takeStreamByte, hf, State.interpretByte, hs, ht, ho,
    State.takeOrderCode]

/-- R126 step 2: every kind but a QUERY is answered with a completion report. -/
theorem State.endReport_completion {t : Transaction} {k : Kind} (hk : t.kind = some k) (h : k ≠ .query) (u : State) :
    u.endReport t = .completion t.tag t.status (t.firstSkipped.getD 0) := by
  unfold State.endReport
  rw [hk]
  cases k with
  | query => exact absurd rfl h
  | _ => rfl

section close

variable {s : State} {t : Transaction} {p : PageNum}

/-- R95: a release with no input held changes nothing. -/
theorem State.releaseInput_of_empty (hq : s.keys.queue = []) (hb : s.scan.buffer = none) : s.releaseInput = s := by
  have scan : s.releaseScan = s := by
    unfold State.releaseScan
    rw [hb]
    split <;> simp_all
  simp [State.releaseInput, scan, hq, State.releaseKeys]

@[simp] theorem State.clearMark_keys (s : State) (t : Transaction) : (s.clearMark t).keys = s.keys := by
  unfold State.clearMark; split <;> rfl

@[simp] theorem State.clearMark_scan (s : State) (t : Transaction) : (s.clearMark t).scan = s.scan := by
  unfold State.clearMark; split <;> rfl

/-- R95: the close of a transaction when no input is held. -/
theorem State.closeTransaction_of_nothingHeld (next : InterpState) (h : s.nothingHeld) :
    s.closeTransaction t next = s.closed t next := by
  rw [State.closeTransaction_closed]
  split
  · rename_i inhibited
    obtain ⟨hq, hb⟩ := h inhibited
    exact State.releaseInput_of_empty (by simpa [State.closed] using hq) (by simpa [State.closed] using hb)
  · rfl

@[simp] theorem State.inhibited_answer (s : State) (r : Report) : (s.answer r).inhibited = s.inhibited :=
  State.inhibited_congr (by simp) (by simp) (by simp)

theorem State.nothingHeld_answer (r : Report) (h : s.nothingHeld) : (s.answer r).nothingHeld := by
  simpa [State.nothingHeld] using h

/-- R126, R127: the answer and the close of a transaction on a page, with no input held. -/
theorem State.closedTo_page_of_nothingHeld (next : InterpState) (r : Report) (hp : t.page = some p) (h : s.nothingHeld) :
    (s.setPage p { s.page p with inFlight := false }).closedTo ((s.answer r).closeTransaction t next) next none r := by
  rw [State.closeTransaction_of_nothingHeld _ (State.nothingHeld_answer r h)]
  simp only [State.closed, State.clearMark, hp]
  unfold State.closedTo State.answered
  rw [State.answer_eq]
  by_cases h8 : s.reports.queue.length < 8 <;> simp [h8, State.updPage, State.setPage, State.page]

theorem State.nothingHeld_of_kind {k : Kind} (ht : s.interp.txn = some t) (hk : t.kind = some k)
    (h : k ≠ .amend ∧ k ≠ .reopen) : s.nothingHeld := fun i => by
  rw [State.inhibited_of_kind ht hk h] at i; cases i

/-- R90: only a marked active page is inhibited. -/
theorem State.inhibited_of_unmarked (h : ∀ a, s.active = some a → (s.page a).inFlight = false) : s.inhibited = false := by
  unfold State.inhibited
  split
  · exact h _ ‹_›
  · exact h _ ‹_›
  · rfl

@[simp] theorem State.setPage_setPage (s : State) (p : PageNum) (g h : Page) :
    (s.setPage p g).setPage p h = s.setPage p h := by
  simp [State.setPage]

end close

/-! ## LOAD and REOPEN -/

section readied

variable {s : State} {t : Transaction} {k : Kind} {p : PageNum}

/-- R9, R13: END brings the page into the ready queue, READY and without a timer, and promotion follows. -/
def State.readied (s : State) (k : Kind) (p : PageNum) : State :=
  { s.setPage p { s.page p with state := .ready, timer := .absent } with
    ready := if k = .load then s.ready ++ [p] else p :: s.ready }

theorem State.endEffects_readied (hk : t.kind = some k) (hp : t.page = some p) (kind : k = .load ∨ k = .reopen)
    (timer : k = .load → (s.page p).timer = .absent) : s.endEffects t = (s.readied k p).promote := by
  unfold State.endEffects
  rw [hk, hp]
  rcases kind with rfl | rfl
  · have same : { s.page p with state := .ready } = { s.page p with state := .ready, timer := .absent } := by
      rw [← timer rfl]
    simp only [State.loadEnd, State.updPage, same]
    rfl
  · rfl

theorem State.page_readied (q : PageNum) : (s.readied k p).page q =
    if q = p then { s.page p with state := .ready, timer := .absent } else s.page q := State.page_setPage s p q _

/-- R9, R13: with another page ACTIVE, unmarked, the readied page waits. -/
theorem State.closedTo_readied {a : PageNum} (next : InterpState) (r : Report) (hp : t.page = some p)
    (active : s.active = some a) (other : a ≠ p) (unmarked : (s.page a).inFlight = false) :
    State.closedTo
      { s.setPage p { s.page p with state := .ready, inFlight := false, timer := .absent } with
        ready := if k = .load then s.ready ++ [p] else p :: s.ready }
      (((s.readied k p).promote.answer r).closeTransaction t next) next none r := by
  have stays : (s.readied k p).promote = s.readied k p := State.promote_active active
  have free : (s.readied k p).inhibited = false := State.inhibited_of_unmarked fun b hb => by
    obtain rfl := Option.some.inj (active.symm.trans hb)
    rwa [State.page_readied, if_neg other]
  have closed := State.closedTo_page_of_nothingHeld (s := s.readied k p) next r hp fun i => by simp [free] at i
  have base : (s.readied k p).setPage p { (s.readied k p).page p with inFlight := false } =
      { s.setPage p { s.page p with state := .ready, inFlight := false, timer := .absent } with
        ready := if k = .load then s.ready ++ [p] else p :: s.ready } := by
    rw [State.page_readied, if_pos rfl]
    simp [State.readied, State.setPage]
  rwa [stays, ← base]

/-- R6, R9, R13: with no page ACTIVE and none READY, the readied page becomes ACTIVE. -/
theorem State.closedTo_readied_promoted (next : InterpState) (r : Report) (hp : t.page = some p)
    (active : s.active = none) (ready : s.ready = []) (buffer : s.scan.buffer = none) :
    State.closedTo
      { s.setPage p { s.page p with state := .active, inFlight := false, timer := .absent } with
        active := some p
        noPage := none
        keys := { s.keys with queue := [] }
        scan := { s.scan with confirm := none, window := none } }
      (((s.readied k p).promote.answer r).closeTransaction t next) next none r := by
  have alone : (s.readied k p).ready = [p] := by simp [State.readied, ready]
  have idle : (s.readied k p).active = none := active
  have promoted := State.promote_head idle alone
  have held : (s.readied k p).promote.nothingHeld := fun _ => by simp [promoted]
  have closed := State.closedTo_page_of_nothingHeld next r hp held
  have base : (s.readied k p).promote.setPage p { (s.readied k p).promote.page p with inFlight := false } =
      { s.setPage p { s.page p with state := .active, inFlight := false, timer := .absent } with
        active := some p
        noPage := none
        keys := { s.keys with queue := [] }
        scan := { s.scan with confirm := none, window := none } } := by
    rw [State.page_promote idle alone, if_pos rfl, State.page_readied, if_pos rfl, promoted]
    simp [State.readied, State.setPage, ready, buffer]
  rwa [← base]

end readied

/-- Settles O35: END readies the page, and promotion moves it on exactly when no page is ACTIVE. -/
theorem loadAndReopenEnds : Obligations.LoadAndReopenEnds := by
  intro s t k p due hp kind timer
  have hk : t.kind = some k := due.2.2.1
  have effects := State.endEffects_readied hk hp kind timer
  have completion := State.endReport_completion hk (by rcases kind with rfl | rfl <;> simp)
  rw [exec_endTransaction due, State.reachEnd, effects, completion]
  exact ⟨fun a active other unmarked => ⟨_, rfl, State.closedTo_readied _ _ hp active other unmarked⟩,
    fun active ready buffer => ⟨_, rfl, State.closedTo_readied_promoted _ _ hp active ready buffer⟩⟩

/-! ## The other kinds -/

/-- R126: END of a kind whose effects are u, on a page, with no input held. -/
theorem State.closedTo_reachEnd_page {s u : State} {t : Transaction} {k : Kind} {p : PageNum} (hk : t.kind = some k)
    (h : k ≠ .query) (effects : s.endEffects t = u) (hp : t.page = some p) (held : u.nothingHeld) :
    (u.setPage p { u.page p with inFlight := false }).closedTo (s.reachEnd t) .between none
      (.completion t.tag t.status (t.firstSkipped.getD 0)) := by
  rw [State.reachEnd, State.endReport_completion hk h, effects]
  exact State.closedTo_page_of_nothingHeld _ _ hp held

/-- R126: END of a kind that names no page. -/
theorem State.closedTo_reachEnd_none {s u : State} {t : Transaction} {k : Kind} (hk : t.kind = some k)
    (h : k ≠ .query) (effects : s.endEffects t = u) (hp : t.page = none) (free : u.inhibited = false) :
    u.closedTo (s.reachEnd t) .between none (.completion t.tag t.status (t.firstSkipped.getD 0)) := by
  rw [State.reachEnd, State.endReport_completion hk h, effects]
  exact State.closedTo_none _ _ hp free

theorem clampWindow_eq (b : Byte) : clampWindow b = max 1 (min b.toNat 50) := by
  unfold clampWindow
  split
  · omega
  · split <;> omega

/-- Settles O36, kind by kind: the effects, then the answer and the close. -/
theorem otherEnds : Obligations.OtherEnds := by
  intro s t k due
  obtain ⟨-, ht, hk, -, -⟩ := id due
  rw [exec_endTransaction due]
  refine ⟨?_, ?_, ?_, ?_, ?_⟩
  · rintro p hp rfl
    have effects : s.endEffects t = s.updPage p (·.released) := by simp only [State.endEffects, hk, hp]
    have closed := State.closedTo_reachEnd_page hk (by simp) effects hp (State.nothingHeld_of_kind ht hk (by simp))
    refine ⟨_, rfl, ?_⟩
    simpa [State.updPage, Page.released, Page.blank] using closed
  · intro p hp kind
    have notQuery : k ≠ .query := by rcases kind with rfl | ⟨rfl, -⟩ <;> simp
    have effects : s.endEffects t = s := by
      rcases kind with rfl | ⟨rfl, -⟩ <;> simp only [State.endEffects, hk, hp]
    have held : s.nothingHeld := by
      rcases kind with rfl | ⟨rfl, held⟩
      · exact State.nothingHeld_of_kind ht hk (by simp)
      · exact held
    exact ⟨_, rfl, State.closedTo_reachEnd_page hk notQuery effects hp held⟩
  · rintro n rfl hn
    have effects : s.endEffects t = s.updSlot n fun x => { x with state := .filled } := by
      simp only [State.endEffects, hk, hn]; rfl
    exact ⟨_, rfl, State.closedTo_reachEnd_none hk (by simp) effects (Transaction.page_of_kind hk rfl)
      (State.inhibited_of_kind (s := s.updSlot n _) ht hk (by simp))⟩
  · intro kind
    have noPage : t.page = none := Transaction.page_of_kind hk (by rcases kind with rfl | rfl | rfl <;> rfl)
    have effects : s.endEffects t = s := by
      rcases kind with rfl | rfl | rfl <;> simp only [State.endEffects, hk]
    exact ⟨_, rfl, State.closedTo_reachEnd_none hk (by rcases kind with rfl | rfl | rfl <;> simp) effects noPage
      (State.inhibited_of_kind ht hk (by rcases kind with rfl | rfl | rfl <;> simp))⟩
  · rintro limit window typeAhead rfl operands
    have effects : s.endEffects t = s.applySetup limit window typeAhead := by
      simp only [State.endEffects, hk, operands]; rfl
    have closed := State.closedTo_reachEnd_none hk (by simp) effects (Transaction.page_of_kind hk rfl)
      (State.inhibited_of_kind (s := s.applySetup limit window typeAhead) ht hk (by simp))
    refine ⟨_, rfl, ?_⟩
    simpa only [State.applySetup, clampWindow_eq] using closed

/-! ## RESTART -/

/-- R6: a held scan that is refused is answered NAK-BUSY. -/
theorem State.refuseHeld_eq (s : State) : s.refuseHeld = { s with scan := { s.scan with
    buffer := none
    answers := s.scan.answers ++ if s.scan.buffer = none then [] else [0x15#8, 0x01#8] } } := by
  unfold State.refuseHeld
  cases hb : s.scan.buffer with
  | none =>
    obtain ⟨_, _, _, _, _, ⟨b, _, _, _, _⟩, _, _, _, _, _, _⟩ := s
    obtain rfl : b = none := hb
    simp
  | some characters => rfl

/-- R158: the padding that RESTART leaves owed. -/
theorem State.clearReports_padding (s : State) : s.clearReports.reports.padding = s.reports.padding +
    match s.reports.queue with
    | [] => 0
    | r :: _ => if s.reports.taken = 0 then 0 else (s.reportBytes r).length - s.reports.taken := rfl

/-- R15: what RESTART's effects are, item by item. -/
theorem State.restartEnd_eq (s : State) : s.restartEnd = { s.clearReports with
    pages := Vector.replicate 6 .blank
    ready := []
    active := none
    noPage := none
    keys := { s.keys with queue := [] }
    scan := { s.scan with
      buffer := none
      confirm := none
      window := none
      answers := s.scan.answers ++ if s.scan.buffer = none then [] else [0x15#8, 0x01#8] } } := by
  unfold State.restartEnd
  rw [State.refuseHeld_eq]
  rfl

/-- R15, R126: the state after the END of a RESTART. -/
theorem State.reachEnd_restart {s : State} {t : Transaction} (hk : t.kind = some .restart) :
    s.reachEnd t = { s.restartEnd with
      reports := { s.restartEnd.reports with queue := [.completion t.tag t.status (t.firstSkipped.getD 0)] }
      interp := { s.interp with state := .between, txn := none } } := by
  have effects : s.endEffects t = s.restartEnd := by simp only [State.endEffects, hk]
  have free : s.restartEnd.inhibited = false := State.inhibited_of_unmarked nofun
  obtain ⟨left, answered⟩ :=
    State.closedTo_reachEnd_none hk (by simp) effects (Transaction.page_of_kind hk rfl) free
  unfold State.answered at answered
  rw [State.restartEnd_queue, if_pos (by decide)] at answered
  rw [answered.1, answered.2, State.restartEnd_interp] at left
  exact left

/-- Settles O37: the answer finds the queue emptied, and with no page ACTIVE nothing is held. -/
theorem restartEnds : Obligations.RestartEnds := by
  intro s t due
  have padding := s.clearReports_padding
  rw [exec_endTransaction due, State.reachEnd_restart due.2.2.1, State.restartEnd_eq]
  refine ⟨_, rfl, fun p => by simp [State.page], rfl, rfl, rfl, rfl, rfl, rfl, rfl, rfl, rfl, rfl, fun untaken => ?_,
    fun r rest queue taken => ?_⟩
  · refine padding.trans ?_
    cases s.reports.queue <;> simp [untaken]
  · refine padding.trans ?_
    simp [queue, taken]

end Sys2Proof.Machine

/-! # The last byte of a report

R146, R156: the report leaves the queue, and the entry it frees goes to the first that waits. -/

namespace Sys2Proof.Machine

/-! ## The first waiting cause -/

theorem allChains_split (c : ChainId) : ∃ after, allChains = (allChains.filter (· < c)) ++ c :: after := by
  exact ⟨allChains.filter (c < ·), by revert c; decide⟩

theorem allPages_split (p : PageNum) : ∃ after, allPages = (allPages.filter (· < p)) ++ p :: after := by
  exact ⟨allPages.filter (p < ·), by revert p; decide⟩

/-- R156: the first cause of a set, and the set it leaves, in the order KEY, CHAIN0 to CHAIN3, EXIT. -/
def AttentionSet.Hands (set : AttentionSet) (cause : Cause) (still : AttentionSet) : Prop :=
  set.key = true ∧ cause = .key ∧ still = { set with key := false } ∨
    (∃ c : ChainId, set.key = false ∧ (∀ d : ChainId, d < c → set.chains[d.val] = false) ∧
      set.chains[c.val] = true ∧ cause = .chain c ∧ still = { set with chains := set.chains.set c.val false }) ∨
    ∃ n : Nat, set.key = false ∧ (∀ d : ChainId, set.chains[d.val] = false) ∧ set.exit = some n ∧
      cause = .exit n ∧ still = { set with exit := none }

theorem AttentionSet.first_of_hands {set still : AttentionSet} {cause : Cause} (h : set.Hands cause still) :
    set.first = some cause ∧ set.remove cause = still := by
  unfold AttentionSet.first
  rcases h with ⟨key, rfl, rfl⟩ | ⟨c, key, before, here, rfl, rfl⟩ | ⟨n, key, chains, exit, rfl, rfl⟩
  · exact ⟨if_pos key, rfl⟩
  · obtain ⟨after, split⟩ := allChains_split c
    have found : allChains.find? (fun c => set.chains[c.val]) = some c := by
      rw [split, List.find?_append, List.find?_eq_none.2 fun d hd => by simp [before d (by simpa using List.of_mem_filter hd)]]
      simp [here]
    simp [key, found, AttentionSet.remove]
  · have found : allChains.find? (fun c => set.chains[c.val]) = none := List.find?_eq_none.2 fun d _ => by simp [chains d]
    simp [key, found, exit, AttentionSet.remove]

/-- R156: the lowest page with a pending cause comes first. -/
theorem State.firstAttention_of_page {s : State} {p : PageNum} {cause : Cause}
    (before : ∀ q : PageNum, q < p → (s.page q).attention = .empty) (here : (s.page p).attention.first = some cause) :
    s.firstAttention = some (p, cause) := by
  obtain ⟨after, split⟩ := allPages_split p
  unfold State.firstAttention
  rw [split, List.findSome?_append, List.findSome?_eq_none_iff.2 fun q hq => by
    simp [before q (by simpa using List.of_mem_filter hq), AttentionSet.first_empty]]
  simp [here]

/-! ## The report leaves -/

section lastByte

variable {s left : State} {r : Report} {rest : List Report}

/-- R17, R20, R146: what the leaving report's last byte makes of the pages. -/
def State.LeftBy (s left : State) (r : Report) : Prop :=
  (∃ e : EntryReport, r = .entry e ∧ left = s.setPage e.page { s.page e.page with
    state := .awaiting
    timer := if s.interp.replyLimit = 0 then .notRunning else .remaining (s.interp.replyLimit * 1000) }) ∨
  (∀ p, Report.isEntryOf p r = false) ∧ left = s

/-- R146: the state with the head report gone, before its freed entry is handed on. -/
def State.popped (s left : State) (r : Report) (rest : List Report) : State :=
  { left with
    reports := { s.reports with queue := rest, taken := 0 }
    outputs := { s.outputs with stream := (s.reportBytes r).getLast? } }

theorem State.takeReportByte_last (padding : s.reports.padding = 0) (queue : s.reports.queue = r :: rest)
    (last : s.reports.taken + 1 = (s.reportBytes r).length) (h : s.LeftBy left r) :
    s.takeReportByte = (s.popped left r rest).handFreed := by
  have byte : (s.reportBytes r)[s.reports.taken]? = (s.reportBytes r).getLast? := by
    rw [List.getLast?_eq_getElem?, ← last, Nat.add_sub_cancel]
  have more : ¬s.reports.taken + 1 < (s.reportBytes r).length := by omega
  unfold State.takeReportByte
  rw [if_neg (by omega)]
  simp only [queue, if_neg more, byte]
  congr 1
  rcases h with ⟨e, rfl, rfl⟩ | ⟨other, rfl⟩
  · rfl
  · cases r with
    | entry e => exact absurd (other e.page) (by simp [Report.isEntryOf])
    | _ => rfl

/-- R146: beside an entry report's page state and timer the leaving changes no page. -/
theorem State.page_leftBy (h : s.LeftBy left r) (q : PageNum) :
    (left.page q).attention = (s.page q).attention ∧ (left.page q).serial = (s.page q).serial := by
  rcases h with ⟨e, -, rfl⟩ | ⟨-, rfl⟩
  · rw [State.page_setPage]
    split
    · subst_vars; exact ⟨rfl, rfl⟩
    · exact ⟨rfl, rfl⟩
  · exact ⟨rfl, rfl⟩

theorem State.stalled_leftBy (h : s.LeftBy left r) : left.interp = s.interp := by
  rcases h with ⟨e, -, rfl⟩ | ⟨-, rfl⟩ <;> rfl

end lastByte

/-- Settles O41: once the report has left, the hand-over is decided by what waits, place by place. -/
theorem lastReportByteFreesTheEntry : Obligations.LastReportByteFreesTheEntry := by
  intro s left r rest padding queue last h
  have h : s.LeftBy left r := h
  have page := State.page_leftBy h
  have interp := State.stalled_leftBy h
  have taken : exec .reportByteTaken s = .next (s.popped left r rest).handFreed :=
    congrArg Host.Outcome.next (State.takeReportByte_last padding queue last h)
  rw [taken]
  refine ⟨fun ⟨stalled, notice, attention⟩ => ?_, fun x stalled => ?_, fun pairs stalled notice => ?_,
    fun p cause still stalled notice before hands => ?_⟩
  · have waits : (s.popped left r rest).nothingWaits :=
      ⟨by rw [← stalled, ← interp]; rfl, notice, fun q => (page q).1.trans (attention q)⟩
    rw [State.handFreed_idle waits]
    rfl
  · have stalled : (s.popped left r rest).interp.stalled = some x := by rw [← stalled, ← interp]; rfl
    simp only [State.handFreed, stalled]
    rw [← interp]
    rfl
  · have stalled : (s.popped left r rest).interp.stalled = none := by rw [← stalled, ← interp]; rfl
    have notice : (s.popped left r rest).reports.notice = some pairs := notice
    simp only [State.handFreed, stalled, notice]
    rfl
  · obtain ⟨first, remains⟩ := AttentionSet.first_of_hands hands
    have stalled : (s.popped left r rest).interp.stalled = none := by rw [← stalled, ← interp]; rfl
    have notice : (s.popped left r rest).reports.notice = none := notice
    have attention : (s.popped left r rest).firstAttention = some (p, cause) :=
      State.firstAttention_of_page (fun q hq => (page q).1.trans (before q hq)) ((congrArg _ (page p).1).trans first)
    simp only [State.handFreed, stalled, notice, attention]
    have serial : ((s.popped left r rest).page p).serial = (s.page p).serial := (page p).2
    have remains : still = ((s.popped left r rest).page p).attention.remove cause := by
      rw [← remains, ← (page p).1]; rfl
    rw [serial, remains]
    rfl

end Sys2Proof.Machine

/-! # Expiries and the passing of time -/

namespace Sys2Proof.Machine

section expiries

variable {s : State} {p : PageNum}

/-- R21, R22: a timer that does not run does not expire. -/
theorem State.expireReply_of_stopped (h : (s.page p).state ≠ .awaiting ∨ (s.page p).inFlight = true ∨
    (s.page p).timer = .notRunning) : s.expireReply p = s := by
  refine if_neg fun runs => ?_
  obtain ⟨awaiting, unmarked, ms, timer⟩ := Page.timerRuns_iff.1 runs
  rcases h with h | h | h
  · exact h awaiting
  · simp [unmarked] at h
  · simp [timer] at h

/-- R22: a running timer returns its page to the head of the ready queue, and promotion follows. -/
theorem State.expireReply_of_running {ms : Nat} (awaiting : (s.page p).state = .awaiting)
    (unmarked : (s.page p).inFlight = false) (timer : (s.page p).timer = .remaining ms) :
    s.expireReply p = State.promote
      { s.setPage p { s.page p with state := .ready, timer := .absent, overdue := true } with ready := p :: s.ready } :=
  if_pos (Page.timerRuns_iff.2 ⟨awaiting, unmarked, ms, timer⟩)

/-- R114: what a window's expiry leaves without a first read held. -/
theorem State.expireConfirm_of_none (h : s.scan.confirm = none) : s.expireConfirm = s := by
  simp [State.expireConfirm, h]

theorem State.expireConfirm_of_some {r : ConfirmRecord} (h : s.scan.confirm = some r) :
    s.expireConfirm =
      if (s.page r.page).hold = none then s.dropConfirm.setNotice r.page (some .sRescan) else s.dropConfirm := by
  unfold State.expireConfirm
  rw [h]
  rfl

end expiries

/-! ## What stands due -/

/-- The command that takes an expiry. -/
def Due.command : Due → Instr
  | .reply p => .replyTimerExpiry p
  | .confirm => .confirmWindowExpiry
  | .gathering => .gatheringWindowExpiry

theorem Due.command_injective : Function.Injective Due.command := by
  intro a b h
  cases a <;> cases b <;> simp_all [Due.command]

theorem exec_command (d : Due) (s : State) : exec d.command s = .next (s.expire d) := by cases d <;> rfl

/-- A timer that runs stands at zero. -/
def State.IsDue (s : State) (c : Instr) : Prop :=
  (∃ q : PageNum, c = .replyTimerExpiry q ∧ (s.page q).state = .awaiting ∧ (s.page q).inFlight = false ∧
    (s.page q).timer = .remaining 0) ∨
  c = .confirmWindowExpiry ∧ s.scan.window = some 0 ∨
  c = .gatheringWindowExpiry ∧ s.store.unit.window = some 0

section due

variable {s : State}

theorem State.reply_mem_due {q : PageNum} : Due.reply q ∈ s.due ↔
    (s.page q).state = .awaiting ∧ (s.page q).inFlight = false ∧ (s.page q).timer = .remaining 0 := by
  have confirm : Due.reply q ∉ (if s.scan.window = some 0 then [Due.confirm] else []) := by split <;> simp
  have gathering : Due.reply q ∉ (if s.store.unit.window = some 0 then [Due.gathering] else []) := by split <;> simp
  simp only [State.due, List.mem_append, confirm, gathering, or_false, List.mem_map, List.mem_filter, mem_allPages,
    Bool.and_eq_true, beq_iff_eq, Page.timerRuns_iff, Due.reply.injEq]
  constructor
  · rintro ⟨_, ⟨-, ⟨awaiting, unmarked, -⟩, zero⟩, rfl⟩
    exact ⟨awaiting, unmarked, zero⟩
  · rintro ⟨awaiting, unmarked, zero⟩
    exact ⟨q, ⟨trivial, ⟨awaiting, unmarked, 0, zero⟩, zero⟩, rfl⟩

theorem State.confirm_mem_due : Due.confirm ∈ s.due ↔ s.scan.window = some 0 := by
  by_cases h : s.scan.window = some 0 <;> by_cases k : s.store.unit.window = some 0 <;> simp [State.due, h, k]

theorem State.gathering_mem_due : Due.gathering ∈ s.due ↔ s.store.unit.window = some 0 := by
  by_cases h : s.scan.window = some 0 <;> by_cases k : s.store.unit.window = some 0 <;> simp [State.due, h, k]

/-- The list of what stands due holds each expiry due, as its command. -/
theorem State.isDue_iff {c : Instr} : s.IsDue c ↔ ∃ d ∈ s.due, d.command = c := by
  constructor
  · rintro (⟨q, rfl, h⟩ | ⟨rfl, h⟩ | ⟨rfl, h⟩)
    · exact ⟨.reply q, State.reply_mem_due.2 h, rfl⟩
    · exact ⟨.confirm, State.confirm_mem_due.2 h, rfl⟩
    · exact ⟨.gathering, State.gathering_mem_due.2 h, rfl⟩
  · rintro ⟨d, hd, rfl⟩
    cases d with
    | reply q => exact .inl ⟨q, rfl, State.reply_mem_due.1 hd⟩
    | confirm => exact .inr (.inl ⟨rfl, State.confirm_mem_due.1 hd⟩)
    | gathering => exact .inr (.inr ⟨rfl, State.gathering_mem_due.1 hd⟩)

theorem ite_sublist_self {α : Type} (c : Prop) [Decidable c] (l : List α) : (if c then l else []).Sublist l := by
  split
  · exact .refl l
  · exact List.nil_sublist l

/-- No expiry stands due twice. -/
theorem State.nodup_due (s : State) : s.due.Nodup := by
  have part : s.due.Sublist (allPages.map Due.reply ++ [Due.confirm] ++ [Due.gathering]) :=
    ((List.filter_sublist.map _).append (ite_sublist_self _ _)).append (ite_sublist_self _ _)
  exact part.nodup (by decide)

/-- With one expiry due, it is taken. -/
theorem State.idle_of_one {c : Instr} (h : s.IsDue c) (one : ∀ d, s.IsDue d → d = c) : exec c s = .next s.idle := by
  obtain ⟨d, hd, rfl⟩ := State.isDue_iff.1 h
  have only : ∀ x ∈ s.due, x = d := fun x hx =>
    Due.command_injective (one _ (State.isDue_iff.2 ⟨x, hx, rfl⟩))
  have list : s.due = [d] := by
    cases e : s.due with
    | nil => simp [e] at hd
    | cons x xs =>
      obtain rfl := only x (by simp [e])
      cases xs with
      | nil => rfl
      | cons y ys =>
        have fresh := (List.nodup_cons.1 (e ▸ s.nodup_due)).1
        exact absurd (only y (by simp [e])) fun same => fresh (by simp [same])
  rw [exec_command]
  simp [State.idle, list]

/-- With several expiries due, one of them is taken, and the choice is counted (log entry 6). -/
theorem State.idle_of_several {c d : Instr} (hc : s.IsDue c) (hd : s.IsDue d) (ne : c ≠ d) :
    ∃ x, s.IsDue x ∧ exec x { s with choices := s.choices + 1 } = .next s.idle := by
  obtain ⟨a, ha, rfl⟩ := State.isDue_iff.1 hc
  obtain ⟨b, hb, rfl⟩ := State.isDue_iff.1 hd
  have differ : a ≠ b := fun e => ne (congrArg _ e)
  match e : s.due with
  | [] => simp [e] at ha
  | [x] => simp only [e, List.mem_singleton] at ha hb; exact absurd (ha.trans hb.symm) differ
  | x :: y :: zs =>
    let i := Config.expiryChoice s.choices % (zs.length + 2)
    have bound : i < (x :: y :: zs).length := Nat.mod_lt _ (by simp)
    refine ⟨((x :: y :: zs)[i]).command, State.isDue_iff.2 ⟨_, by rw [e]; exact List.getElem_mem bound, rfl⟩, ?_⟩
    have chosen : (x :: y :: zs).getD (Config.expiryChoice (s.choices + 1 - 1) % ((y :: zs).length + 1)) x =
      (x :: y :: zs)[i] := List.getD_eq_getElem _ _ bound
    rw [exec_command]
    simp only [State.idle, e, chosen]

end due

/-! ## The passing of time -/

/-- R20, R21: the timer that runs counts down. -/
theorem Page.tick_of_running {g : Page} {ms : Nat} (timer : g.timer = .remaining ms) (awaiting : g.state = .awaiting)
    (unmarked : g.inFlight = false) : g.tick = { g with timer := .remaining (ms - 1) } := by
  have runs : g.timerRuns = true := Page.timerRuns_iff.2 ⟨awaiting, unmarked, ms, timer⟩
  simp [Page.tick, timer, runs]

theorem Page.tick_of_stopped {g : Page} (h : g.inFlight = true ∨ g.state ≠ .awaiting ∨ g.timer = .absent ∨
    g.timer = .notRunning) : g.tick = g := by
  have stopped : ¬g.timerRuns = true := fun runs => by
    obtain ⟨awaiting, unmarked, ms, timer⟩ := Page.timerRuns_iff.1 runs
    simp [awaiting, unmarked, timer] at h
  unfold Page.tick
  split
  · rw [if_neg stopped]
  all_goals rfl

theorem State.page_tick (s : State) (q : PageNum) : s.tick.page q = (s.page q).tick := by
  have folded := State.page_foldl_updPage Page.tick (ps := allPages) (by decide) s q
  rw [if_pos (mem_allPages q)] at folded
  exact folded

theorem State.tick_frame (s : State) : s.tick = { s with
    pages := s.tick.pages
    scan := { s.scan with window := s.scan.window.map (· - 1) }
    store := { s.store with unit := { s.store.unit with window := s.store.unit.window.map (· - 1) } } } := by
  obtain ⟨pages, frame⟩ := State.foldl_updPage_eq Page.tick allPages s
  unfold State.tick
  rw [show (allPages.foldl (fun s p => s.updPage p (·.tick)) s) = { s with pages := pages } from frame]

theorem State.idle_of_none {s : State} (h : ∀ c, ¬s.IsDue c) : s.idle = s.tick := by
  have empty : s.due = [] := List.eq_nil_iff_forall_not_mem.2 fun d hd => h _ (State.isDue_iff.2 ⟨d, hd, rfl⟩)
  simp [State.idle, empty]

/-- Settles O57: each expiry by whether its timer runs; with no command waiting, by how many expiries stand due. -/
theorem timerExpiries : Obligations.TimerExpiries := by
  intro s p
  refine ⟨fun stopped => ?_, fun ms awaiting unmarked timer => ⟨fun a active => ?_, fun active ready buffer => ?_⟩,
    fun none_ => ?_, fun r some_ => ⟨fun hold => ?_, fun hold => ?_⟩, fun waiting => ?_⟩
  · exact congrArg Host.Outcome.next (State.expireReply_of_stopped stopped)
  · refine congrArg Host.Outcome.next ((State.expireReply_of_running awaiting unmarked timer).trans ?_)
    exact State.promote_active active
  · refine congrArg Host.Outcome.next ((State.expireReply_of_running awaiting unmarked timer).trans ?_)
    refine (State.promote_head (p := p) (rest := []) (by exact active) (by simp [ready])).trans ?_
    simp [State.setPage, State.page, ready, buffer]
  · exact congrArg Host.Outcome.next (State.expireConfirm_of_none none_)
  · exact congrArg Host.Outcome.next ((State.expireConfirm_of_some some_).trans (if_pos hold))
  · exact congrArg Host.Outcome.next ((State.expireConfirm_of_some some_).trans (if_neg hold))
  · have idles : step s = .next s.idle := by simp [step, waiting]
    refine ⟨fun none_ => ⟨s.tick, ?_, s.tick_frame, fun q ms timer awaiting unmarked => ?_, fun q stopped => ?_⟩,
      fun c hc one => ?_, fun c d hc hd ne => ?_⟩
    · rw [idles, State.idle_of_none none_]
    · rw [State.page_tick, Page.tick_of_running timer awaiting unmarked]
    · rw [State.page_tick, Page.tick_of_stopped stopped]
    · rw [idles, State.idle_of_one hc one]
    · obtain ⟨x, hx, taken⟩ := State.idle_of_several hc hd ne
      exact ⟨x, hx, idles.trans taken.symm⟩

end Sys2Proof.Machine

/-! # Control keys -/

namespace Sys2Proof.Machine

/-- R44: a code outside the key table, the marker aside, names no key. -/
theorem keyOfByte_of_unknown {b : Byte} (h : knownInputCode b = false) : keyOfByte b = .unknown ∧ b ≠ 0x1D#8 := by
  simp only [knownInputCode, Bool.or_eq_false_iff, Bool.and_eq_false_iff, decide_eq_false_iff_not, beq_eq_false_iff_ne] at h
  obtain ⟨⟨text, table⟩, marker⟩ := h
  refine ⟨?_, marker⟩
  have unprintable : ¬printable b = true := by rw [printable_iff]; omega
  unfold keyOfByte
  rw [if_neg unprintable, if_neg (by omega)]
  split
  case h_18 => rfl
  all_goals omega

section control

variable {s : State} {p : PageNum}

@[simp] theorem State.setNotice_eq (s : State) (p : PageNum) (n : Option Notice) :
    s.setNotice p n = s.setPage p { s.page p with notice := n } := rfl

/-- R66: RESET on a page in error hold. -/
theorem State.editKey_reset_of_hold (active : s.active = some p) (hold : (s.page p).hold ≠ none) :
    s.editKey .reset = s.setPage p { s.page p with hold := none, notice := none } := by
  have held : (s.page p).hold.isSome = true := Option.isSome_iff_ne_none.2 hold
  simp only [State.editKey, active, held, if_true]
  rfl

/-- R45: a key on the active page outside hold first clears the last notice code. -/
theorem State.editKey_of_free (active : s.active = some p) (hold : (s.page p).hold = none) (k : Key) :
    s.editKey k = (s.setPage p { s.page p with notice := none }).actKey p k := by
  simp [State.editKey, active, hold]

/-- R68, R92: ATTN is taken at once, inhibit or not. -/
theorem State.takeKey_attn (active : s.active = some p) (code : Byte) (h : keyOfByte code = .attn) :
    s.takeKey code = s.editKey .attn := by
  unfold State.takeKey
  simp only [active, h]
  split <;> rfl

/-- R68, R150: ATTN raises the attention of the active page. -/
theorem State.editKey_attn (active : s.active = some p) (hold : (s.page p).hold = none) :
    s.editKey .attn =
      if s.reports.queue.length < 8 then
        { s.setPage p { s.page p with notice := none } with
          reports := { s.reports with queue := s.reports.queue ++ [.attention p .key (s.page p).serial] } }
      else s.setPage p { s.page p with notice := none, attention := { (s.page p).attention with key := true } } := by
  rw [State.editKey_of_free active hold]
  simp only [State.actKey, State.raiseAttention_eq, State.page_setPage_self, State.setPage_setPage, State.setPage_reports]
  rfl

/-- R6, R16: the active page leaves ACTIVE and the head of the ready queue takes its place. -/
theorem State.leaveActive_promote {q : PageNum} {rest : List PageNum} (ready : s.ready = q :: rest)
    (buffer : s.scan.buffer = none) :
    s.leaveActive.promote = { s.setPage q { s.page q with state := .active } with
      ready := rest
      active := some q
      noPage := none
      keys := { s.keys with queue := [] }
      scan := { s.scan with confirm := none, window := none } } := by
  refine (State.promote_head (s := s.leaveActive) rfl ready).trans ?_
  have left : s.leaveActive.scan.buffer = none := buffer
  rw [if_pos left, List.append_nil, ← buffer]
  rfl

/-- R7: PARK with pages waiting behind the active one. -/
theorem State.parkKey_waiting {q : PageNum} {rest : List PageNum} (ready : s.ready = q :: rest) (ne : q ≠ p)
    (buffer : s.scan.buffer = none) :
    s.parkKey p = { (s.setPage p { s.page p with state := .ready }).setPage q { s.page q with state := .active } with
      ready := rest ++ [p]
      active := some q
      noPage := none
      keys := { s.keys with queue := [] }
      scan := { s.scan with confirm := none, window := none } } := by
  have other := State.page_setPage_ne s p q { s.page p with state := .ready } (Ne.symm ne)
  unfold State.parkKey
  rw [ready]
  refine (State.leaveActive_promote (q := q) (rest := rest ++ [p]) (by simp [ready]) (by exact buffer)).trans ?_
  rw [← other]
  rfl

end control

/-- Settles O49, key by key. -/
theorem controlKeys : Obligations.ControlKeys := by
  intro s p
  refine ⟨fun active free frame hold => ?_, fun active hold frame => ?_, fun editing => ?_⟩
  · refine congrArg Host.Outcome.next ((State.takeInput_key s _ frame (by decide)).trans ?_)
    have taken : s.takeKey 0x8D#8 = s.editKey .reset := by simp only [State.takeKey, active, free]; rfl
    rw [taken, State.editKey_reset_of_hold active hold]
  · have taken : exec .attn s = .next (s.editKey .attn) := congrArg Host.Outcome.next
      ((State.takeInput_key s _ frame (by decide)).trans (State.takeKey_attn active _ rfl))
    rw [taken, State.editKey_attn active hold]
    exact ⟨fun free => by rw [if_pos free], fun full => by rw [if_neg (by omega)]⟩
  · have acts (b : Byte) (hb : b ≠ 0x1D#8) := State.takeInput_editing s p b editing hb
    refine ⟨congrArg Host.Outcome.next (acts 0x8D#8 (by decide)), ?_, fun b unknown => ?_, fun ready => ?_,
      fun q rest ready ne buffer => ?_⟩
    · refine congrArg Host.Outcome.next ((acts 0x88#8 (by decide)).trans ?_)
      rw [show keyOfByte 0x88#8 = .insert from rfl]
      simp [State.actKey, State.updPage]
    · obtain ⟨key, marker⟩ := keyOfByte_of_unknown unknown
      refine congrArg Host.Outcome.next ((acts b marker).trans ?_)
      rw [key]
      simp [State.actKey]
    · refine congrArg Host.Outcome.next ((acts 0x90#8 (by decide)).trans ?_)
      show (s.setNotice p none).parkKey p = _
      simp [State.parkKey, ready]
    · refine congrArg Host.Outcome.next ((acts 0x90#8 (by decide)).trans ?_)
      show (s.setNotice p none).parkKey p = _
      rw [State.parkKey_waiting (s := s.setNotice p none) ready ne buffer]
      simp [State.page_setPage_ne, Ne.symm ne]

end Sys2Proof.Machine

/-! # Send validation

The check of the cursor's field, and the walk over the ENTRY fields (R81 to R83). The fields lie apart, so the walk meets
each field with the codes that it held before the walk. -/

namespace Sys2Proof.Machine

/-! ## Runs of cells inside the page -/

theorem Cells.readRun_eq (m : Cells) (start length : Nat) :
    m.readRun start length = (List.range length).map fun i => m.read (start + i) := by
  simp [Cells.readRun, List.range'_eq_map_range, Function.comp_def]

/-- A run written inside the page: its codes where it stands, the old ones elsewhere. -/
theorem Cells.read_writeRun_inside {m : Cells} {a : Nat} {bs : List Byte} (h : m.wf) (ha : a < 1920)
    (hb : a + bs.length ≤ 1920) (b : Nat) :
    (m.writeRun a bs).read b = if a ≤ b ∧ b < a + bs.length then bs.getD (b - a) 0x00#8 else m.read b := by
  split
  · rename_i inside
    have hi : b - a < bs.length := by omega
    have e : (a + (b - a)) % 1920 = b := by omega
    have := Cells.read_writeRun a bs h ha (by omega) (b - a) hi
    rw [e] at this
    rw [this, List.getD_eq_getElem _ _ hi]
  · rename_i outside
    exact Cells.read_writeRun_outside a bs h ha b fun i hi => by omega

/-- The codes of a field's cells. -/
def Page.fieldCodes (g : Page) (f : Field) : List Byte := (List.range f.length).map fun i => g.cells.read (f.start + i)

theorem Page.codesOf_eq (g : Page) (f : Field) : g.codesOf f = g.fieldCodes f := Cells.readRun_eq _ _ _

@[simp] theorem Page.length_fieldCodes (g : Page) (f : Field) : (g.fieldCodes f).length = f.length := by
  simp [Page.fieldCodes]

theorem Page.getD_fieldCodes (g : Page) {f : Field} {a : Nat} (h1 : f.start ≤ a) (h2 : a < f.start + f.length) :
    (g.fieldCodes f).getD (a - f.start) 0x00#8 = g.cells.read a := by
  rw [List.getD_eq_getElem _ _ (by simp; omega)]
  simp only [Page.fieldCodes, List.getElem_map, List.getElem_range]
  congr 1
  omega

/-- R42: an empty run holds null and space only. -/
theorem isEmptyRun_iff {codes : List Byte} : isEmptyRun codes = true ↔ ∀ b ∈ codes, b = 0x00#8 ∨ b = 0x20#8 := by
  simp [isEmptyRun, isBlank]

/-! ## The exit check keeps the length -/

/-- R77: an amount that fits is justified to the field's length. -/
theorem length_justified {zeroFill negative : Bool} {length : Nat} {text : List Byte}
    (fits : text.length + (if negative then 1 else 0) ≤ length) :
    (justified zeroFill negative length text).length = length := by
  cases zeroFill <;> cases negative <;> simp [justified] at fits ⊢ <;> omega

theorem length_of_amountCheck {e : EntryItems} {length : Nat} {cells out : List Byte}
    (h : amountCheck e length cells = .pass out) : out.length = length := by
  unfold amountCheck at h
  split at h
  case h_1 => cases h
  case h_2 parts _ =>
    obtain ⟨fits, passed⟩ := CheckResult.pass_of_stage (CheckResult.pass_of_stage (CheckResult.pass_of_stage h).2).2
    obtain rfl := CheckResult.pass.inj passed
    exact length_justified (Nat.not_lt.1 fits)

theorem length_of_exitCheck {e : EntryItems} {length : Nat} {cells out : List Byte}
    (h : exitCheck e length cells = .pass out) (hl : cells.length = length) : out.length = length := by
  unfold exitCheck at h
  split at h
  · exact CheckResult.pass.inj h ▸ hl
  · simp only at h
    split at h
    case h_1 => cases h
    case h_2 standing classed =>
      obtain rfl := CheckResult.pass.inj (CheckResult.pass_of_stage (CheckResult.pass_of_stage h).2).2
      split at classed
      · exact length_of_amountCheck classed
      · split at classed
        · exact CheckResult.pass.inj classed ▸ hl
        · cases classed

/-- R70, R77: the cells after a passing check has been written: an AMOUNT field stands as it was handed back. -/
theorem Page.cells_writeChecked {g : Page} {f : Field} {e : EntryItems} {out : List Byte} (hg : g.cells.wf)
    (hl : 1 ≤ f.length) (he : f.start + f.length ≤ 1920) (hf : f.entry = some e) (ho : out.length = f.length) :
    (g.writeChecked f out).cells.wf ∧ ∀ a, (g.writeChecked f out).cells.read a =
      if e.cls = .amount ∧ f.start ≤ a ∧ a < f.start + f.length then out.getD (a - f.start) 0x00#8 else g.cells.read a := by
  unfold Page.writeChecked
  by_cases amount : e.cls = .amount
  · have any : f.entry.any (·.cls = .amount) = true := by simp [hf, amount]
    rw [if_pos any]
    refine ⟨Cells.wf_writeRun _ _ hg, fun a => ?_⟩
    simp only [amount, true_and]
    rw [Cells.read_writeRun_inside hg (by omega) (by omega), ho]
  · have any : ¬f.entry.any (·.cls = .amount) = true := by simp [hf, amount]
    rw [if_neg any]
    exact ⟨hg, fun a => by simp [amount]⟩

@[simp] theorem Page.writeChecked_fields (g : Page) (f : Field) (out : List Byte) :
    (g.writeChecked f out).fields = g.fields := by
  unfold Page.writeChecked; split <;> rfl

/-- A write of a passing check changes cells only. -/
theorem Page.writeChecked_eq (g : Page) (f : Field) (out : List Byte) :
    g.writeChecked f out = { g with cells := (g.writeChecked f out).cells } := by
  unfold Page.writeChecked; split <;> rfl

end Sys2Proof.Machine

namespace Sys2Proof.Machine

/-! ## The walk -/

/-- R82: the field passes the walk on the page as it stands. -/
def Page.Passes (g : Page) (f : Field) : Prop := ∀ e, f.entry = some e →
  (e.mandatory = true → ¬∀ b ∈ g.fieldCodes f, b = 0x00#8 ∨ b = 0x20#8) ∧
    (f.modified = true → ∃ out, exitCheck e f.length (g.fieldCodes f) = .pass out)

/-- R77, R82: the cells once the walk has passed the fields `done`: the modified AMOUNT fields among them normalised, the
rest as on the page. -/
def Page.StandsWith (g : Page) (done : List Field) (cells : Cells) : Prop := cells.wf ∧ ∀ a,
  (∀ f ∈ done, ∀ e out, f.entry = some e → e.cls = .amount → f.modified = true → f.start ≤ a →
    a < f.start + f.length → exitCheck e f.length (g.fieldCodes f) = .pass out →
    cells.read a = out.getD (a - f.start) 0x00#8) ∧
  ((∀ f ∈ done, f.modified = true → f.entry.any (·.cls = .amount) = true → a < f.start ∨ f.start + f.length ≤ a) →
    cells.read a = g.cells.read a)

/-- R82: a field once the walk has passed the fields `done`: without check-error mark if it is a tested one among them. -/
def Field.clearedBy (done : List Field) (h : Field) : Field :=
  if done.any (·.number == h.number) && h.entry.any (fun x => h.modified || x.mandatory) then
    { h with entry := h.entry.map fun x => { x with checkError := none } }
  else h

/-- R82: the fields once the walk has passed the fields `done`. -/
def Page.clearedIn (g : Page) (done : List Field) : List Field := g.fields.map (Field.clearedBy done)

/-- R82: the page once the walk has passed the fields `done`. -/
def Page.walked (g : Page) (done : List Field) (cells : Cells) : Page :=
  { g with cells := cells, fields := g.clearedIn done }

/-- The walk tests the field: it is mandatory or modified (R82). -/
def Field.tested (f : Field) : Bool := f.entry.any fun x => f.modified || x.mandatory

section walk

variable {g : Page} {before after : List Field} {f : Field} {cells : Cells}

/-- R26: a field is known by its number. -/
theorem Page.FieldLaw.eq_of_number (law : g.FieldLaw) {f h : Field} (hf : f ∈ g.fields) (hh : h ∈ g.fields)
    (e : h.number = f.number) : h = f := List.inj_on_of_nodup_map law.numbers hh hf e

/-- R32: the fields before a field end where it starts, or earlier. -/
theorem Page.FieldLaw.apart (law : g.FieldLaw) (split : g.fields = before ++ f :: after) :
    ∀ h ∈ before, h.start + h.length ≤ f.start := fun h hh =>
  (List.pairwise_append.1 (split ▸ law.order)).2.2 h hh f (by simp)

/-- R26: no field before a field has its number. -/
theorem Page.FieldLaw.unvisited (law : g.FieldLaw) (split : g.fields = before ++ f :: after) :
    before.any (·.number == f.number) = false := by
  have numbers := law.numbers
  rw [split, List.map_append, List.nodup_append] at numbers
  rw [List.any_eq_false]
  intro h hh e
  exact numbers.2.2 _ (List.mem_map_of_mem hh) f.number (by simp) (by simpa using e)

/-- What the walk has not reached stands as before the walk. -/
theorem Page.StandsWith.read_ahead (stands : g.StandsWith before cells)
    (apart : ∀ h ∈ before, h.start + h.length ≤ f.start) {a : Nat} (ha : f.start ≤ a) :
    cells.read a = g.cells.read a :=
  (stands.2 a).2 fun h hh _ _ => .inr ((apart h hh).trans ha)

theorem Page.StandsWith.fieldCodes (stands : g.StandsWith before cells)
    (apart : ∀ h ∈ before, h.start + h.length ≤ f.start) : (g.walked before cells).fieldCodes f = g.fieldCodes f := by
  unfold Page.fieldCodes
  exact List.map_congr_left fun i _ => stands.read_ahead apart (by omega)

/-- The cells once one more field has been passed, from what they read inside it and outside it. -/
theorem Page.StandsWith.append {left : Cells} (stands : g.StandsWith before cells)
    (apart : ∀ h ∈ before, h.start + h.length ≤ f.start) (wf : left.wf)
    (normalised : ∀ e out a, f.entry = some e → e.cls = .amount → f.modified = true → f.start ≤ a →
      a < f.start + f.length → exitCheck e f.length (g.fieldCodes f) = .pass out →
      left.read a = out.getD (a - f.start) 0x00#8)
    (kept : ¬(f.modified = true ∧ f.entry.any (·.cls = .amount) = true) → ∀ a, f.start ≤ a → a < f.start + f.length →
      left.read a = g.cells.read a)
    (outside : ∀ a, ¬(f.start ≤ a ∧ a < f.start + f.length) → left.read a = cells.read a) :
    g.StandsWith (before ++ [f]) left := by
  refine ⟨wf, fun a => ⟨fun h hh e out he amount modified h1 h2 pass => ?_, fun others => ?_⟩⟩
  · rcases List.mem_append.1 hh with hh | hh
    · have := apart h hh
      rw [outside a (by omega)]
      exact (stands.2 a).1 h hh e out he amount modified h1 h2 pass
    · obtain rfl := List.mem_singleton.1 hh
      exact normalised e out a he amount modified h1 h2 pass
  · by_cases inside : f.start ≤ a ∧ a < f.start + f.length
    · refine kept (fun ⟨modified, amount⟩ => ?_) a inside.1 inside.2
      have := others f (by simp) modified amount
      omega
    · rw [outside a inside]
      exact (stands.2 a).2 fun h hh => others h (by simp [hh])

/-- A field that the walk does not test leaves the cells. -/
theorem Page.StandsWith.append_untested (stands : g.StandsWith before cells)
    (apart : ∀ h ∈ before, h.start + h.length ≤ f.start) (untested : f.tested = false) :
    g.StandsWith (before ++ [f]) cells := by
  refine stands.append apart stands.1 (fun e out a he _ modified => ?_) (fun _ a ha _ => stands.read_ahead apart ha)
    fun _ _ => rfl
  simp [Field.tested, he, modified] at untested

/-! ### The check-error marks -/

@[simp] theorem Field.number_clearedBy (done : List Field) (h : Field) : (h.clearedBy done).number = h.number := by
  unfold Field.clearedBy; split <;> rfl

@[simp] theorem Field.start_clearedBy (done : List Field) (h : Field) : (h.clearedBy done).start = h.start := by
  unfold Field.clearedBy; split <;> rfl

@[simp] theorem Field.length_clearedBy (done : List Field) (h : Field) : (h.clearedBy done).length = h.length := by
  unfold Field.clearedBy; split <;> rfl

@[simp] theorem Field.modified_clearedBy (done : List Field) (h : Field) : (h.clearedBy done).modified = h.modified := by
  unfold Field.clearedBy; split <;> rfl

theorem Field.clearedBy_of_unvisited {done : List Field} {h : Field} (u : done.any (·.number == h.number) = false) :
    h.clearedBy done = h := by
  rw [Field.clearedBy, u, Bool.false_and, if_neg Bool.false_ne_true]

theorem Field.clearedBy_of_untested {done : List Field} {h : Field} (u : h.tested = false) : h.clearedBy done = h := by
  have u' : (h.entry.any fun x => h.modified || x.mandatory) = false := u
  rw [Field.clearedBy, u', Bool.and_false, if_neg Bool.false_ne_true]

theorem Field.clearedBy_of_visited {done : List Field} {h : Field} (v : h ∈ done) (tested : h.tested = true) :
    h.clearedBy done = h.mapEntry (·.checkPassed) := by
  have any : done.any (·.number == h.number) = true := List.any_eq_true.2 ⟨h, v, by simp⟩
  have tested' : (h.entry.any fun x => h.modified || x.mandatory) = true := tested
  rw [Field.clearedBy, any, tested', Bool.true_and, if_pos rfl]
  rfl

/-- One more field passed changes nothing at the fields of other numbers. -/
theorem Field.clearedBy_append_ne {h : Field} (e : h.number ≠ f.number) :
    h.clearedBy (before ++ [f]) = h.clearedBy before := by
  simp [Field.clearedBy, Ne.symm e]

theorem Page.clearedIn_append_untested (law : g.FieldLaw) (split : g.fields = before ++ f :: after)
    (untested : f.tested = false) : g.clearedIn (before ++ [f]) = g.clearedIn before := by
  refine List.map_congr_left fun h hh => ?_
  by_cases e : h.number = f.number
  · obtain rfl := law.eq_of_number (f := f) (by simp [split]) hh e
    rw [Field.clearedBy_of_untested untested, Field.clearedBy_of_untested untested]
  · exact Field.clearedBy_append_ne e

theorem Page.clearedIn_append_tested (law : g.FieldLaw) (split : g.fields = before ++ f :: after)
    (tested : f.tested = true) : g.clearedIn (before ++ [f]) =
      (g.clearedIn before).map fun h => if h.number = f.number then h.mapEntry (·.checkPassed) else h := by
  unfold Page.clearedIn
  rw [List.map_map]
  refine List.map_congr_left fun h hh => ?_
  rw [Function.comp_apply, Field.number_clearedBy]
  by_cases e : h.number = f.number
  · obtain rfl := law.eq_of_number (f := f) (by simp [split]) hh e
    rw [if_pos rfl, Field.clearedBy_of_visited (by simp) tested, Field.clearedBy_of_unvisited (law.unvisited split)]
  · rw [if_neg e, Field.clearedBy_append_ne e]

/-! ### One field of the walk -/

/-- R82: a passing field is tested when it is mandatory or modified, and passes with its normalised codes. -/
theorem Page.walkTest_of_passes {e : EntryItems} (he : f.entry = some e) (passes : g.Passes f) :
    f.tested = false ∧ g.walkTest f = none ∨
    f.tested = true ∧ ∃ out, g.walkTest f = some (.pass out) ∧ out.length = f.length ∧
      (f.modified = true ∧ exitCheck e f.length (g.fieldCodes f) = .pass out ∨
        f.modified = false ∧ out = g.fieldCodes f) := by
  obtain ⟨filled, checked⟩ := passes e he
  have notEmpty : (e.mandatory && isEmptyRun (g.codesOf f)) = false := by
    rw [Bool.and_eq_false_iff, ← Bool.not_eq_true, ← Bool.not_eq_true]
    by_cases mandatory : e.mandatory = true
    · exact .inr fun empty => filled mandatory (isEmptyRun_iff.1 (g.codesOf_eq f ▸ empty))
    · exact .inl mandatory
  simp only [Field.tested, he, Option.any_some, Page.walkTest, notEmpty, Bool.false_eq_true, if_false]
  by_cases modified : f.modified = true
  · obtain ⟨out, pass⟩ := checked modified
    refine .inr ⟨by simp [modified], out, ?_, length_of_exitCheck pass (by simp), .inl ⟨modified, pass⟩⟩
    simp [modified, Page.checkField, he, g.codesOf_eq, pass]
  · rw [Bool.not_eq_true] at modified
    by_cases mandatory : e.mandatory = true
    · exact .inr ⟨by simp [mandatory], g.fieldCodes f, by simp [modified, mandatory, g.codesOf_eq], by simp,
        .inr ⟨modified, rfl⟩⟩
    · exact .inl ⟨by simp [modified, mandatory], by simp [modified, mandatory]⟩

theorem Page.Passes.walked (stands : g.StandsWith before cells) (apart : ∀ h ∈ before, h.start + h.length ≤ f.start)
    (passes : g.Passes f) : (g.walked before cells).Passes f := by
  unfold Page.Passes
  rw [stands.fieldCodes apart]
  exact passes

/-- R82: the walk passes one field. -/
theorem Page.walk_step (law : g.FieldLaw) (split : g.fields = before ++ f :: after) (stands : g.StandsWith before cells)
    (passes : g.Passes f) (fs : List Field) : ∃ left, g.StandsWith (before ++ [f]) left ∧
      (g.walked before cells).walk ((f :: fs).filter (·.isEntry)) =
        (g.walked (before ++ [f]) left).walk (fs.filter (·.isEntry)) := by
  have apart := law.apart split
  obtain ⟨lower, -, upper⟩ := law.extent f (by simp [split])
  have untested (h : f.tested = false) : g.walked before cells = g.walked (before ++ [f]) cells := by
    simp only [Page.walked, Page.clearedIn_append_untested law split h]
  cases he : f.entry with
  | none =>
    have skip : f.tested = false := by simp [Field.tested, he]
    refine ⟨cells, stands.append_untested apart skip, ?_⟩
    rw [List.filter_cons_of_neg (by simp [Field.isEntry, he]), untested skip]
  | some e =>
    rw [List.filter_cons_of_pos (by simp [Field.isEntry, he])]
    rcases Page.walkTest_of_passes he (passes.walked stands apart) with ⟨skip, test⟩ | ⟨tested, out, test, length, codes⟩
    · refine ⟨cells, stands.append_untested apart skip, ?_⟩
      rw [Page.walk, test, untested skip]
    · rw [stands.fieldCodes apart] at codes
      obtain ⟨wf, read⟩ := Page.cells_writeChecked (g := g.walked before cells) stands.1 lower upper he length
      refine ⟨((g.walked before cells).writeChecked f out).cells, ?_, ?_⟩
      · refine stands.append apart wf (fun e' out' a he' amount modified h1 h2 pass => ?_) (fun other a h1 h2 => ?_)
          fun a outside => ?_
        · obtain rfl := Option.some.inj (he.symm.trans he')
          rw [read a, if_pos ⟨amount, h1, h2⟩]
          rcases codes with ⟨-, pass'⟩ | ⟨unmodified, -⟩
          · rw [CheckResult.pass.inj (pass.symm.trans pass')]
          · rw [unmodified] at modified; cases modified
        · rw [read a]
          split
          · rename_i inside
            rcases codes with ⟨modified, -⟩ | ⟨-, rfl⟩
            · exact absurd ⟨modified, by simp [he, inside.1]⟩ other
            · exact g.getD_fieldCodes h1 h2
          · exact stands.read_ahead apart h1
        · rw [read a, if_neg fun inside => outside inside.2]
          rfl
      · rw [Page.walk, test]
        simp only
        congr 1
        rw [Page.writeChecked_eq]
        simp only [Page.walked, Page.updEntry, Page.updField, Page.clearedIn_append_tested law split tested]

/-- R82: the walk passes a run of fields. -/
theorem Page.walk_run (law : g.FieldLaw) (mid : List Field) (before rest : List Field)
    (split : g.fields = before ++ (mid ++ rest)) (cells : Cells) (stands : g.StandsWith before cells)
    (passes : ∀ f ∈ mid, g.Passes f) : ∃ left, g.StandsWith (before ++ mid) left ∧
      (g.walked before cells).walk ((mid ++ rest).filter (·.isEntry)) =
        (g.walked (before ++ mid) left).walk (rest.filter (·.isEntry)) := by
  induction mid generalizing before cells with
  | nil => exact ⟨cells, by simpa using stands, by simp⟩
  | cons f mid ih =>
    obtain ⟨one, stands', step⟩ :=
      Page.walk_step law (after := mid ++ rest) (by simpa using split) stands (passes f (by simp)) (mid ++ rest)
    obtain ⟨left, stands'', run⟩ :=
      ih (before ++ [f]) (by simpa using split) one stands' fun h hh => passes h (by simp [hh])
    exact ⟨left, by simpa using stands'', by simpa using step.trans run⟩

/-- Before the walk the page stands as it is. -/
theorem Page.standsWith_nil (wf : g.cells.wf) : g.StandsWith [] g.cells := ⟨wf, fun _ => ⟨by simp, fun _ => rfl⟩⟩

theorem Page.walked_nil (g : Page) : g.walked [] g.cells = g := by
  have kept : g.clearedIn [] = g.fields :=
    (List.map_congr_left fun h _ => Field.clearedBy_of_unvisited List.any_nil).trans (List.map_id _)
  rw [Page.walked, kept]

/-- R82: the walk over a page whose every field passes. -/
theorem Page.walk_passes (law : g.FieldLaw) (wf : g.cells.wf) (passes : ∀ f ∈ g.fields, g.Passes f) :
    ∃ left, g.StandsWith g.fields left ∧
      g.walk g.entryFields = { page := g.walked g.fields left, failure := none } := by
  obtain ⟨left, stands, run⟩ :=
    Page.walk_run law g.fields [] [] (by simp) g.cells (Page.standsWith_nil wf) passes
  refine ⟨left, stands, ?_⟩
  rw [g.walked_nil] at run
  simpa [Page.entryFields, Page.walk] using run

/-- R82, R83: a field fails the walk with a code. -/
def Page.FailsWith (g : Page) (f : Field) (e : EntryItems) (code : ErrorCode) : Prop :=
  e.mandatory = true ∧ (∀ b ∈ g.fieldCodes f, b = 0x00#8 ∨ b = 0x20#8) ∧ code = .eMand ∨
    (e.mandatory = true → ¬∀ b ∈ g.fieldCodes f, b = 0x00#8 ∨ b = 0x20#8) ∧ f.modified = true ∧
      exitCheck e f.length (g.fieldCodes f) = .fail code

theorem Page.walkTest_of_fails {e : EntryItems} {code : ErrorCode} (he : f.entry = some e) (fails : g.FailsWith f e code) :
    g.walkTest f = some (.fail code) := by
  simp only [Page.walkTest, he, g.codesOf_eq]
  rcases fails with ⟨mandatory, blank, rfl⟩ | ⟨filled, modified, fail⟩
  · simp [mandatory, isEmptyRun_iff.2 blank]
  · have notEmpty : ¬(e.mandatory && isEmptyRun (g.fieldCodes f)) = true := by
      rw [Bool.and_eq_true]
      exact fun ⟨mandatory, empty⟩ => filled mandatory (isEmptyRun_iff.1 empty)
    rw [if_neg notEmpty]
    simp [modified, Page.checkField, he, g.codesOf_eq, fail]

/-- R82, R83: the walk over a page stops at its first failing field. -/
theorem Page.walk_fails (law : g.FieldLaw) (wf : g.cells.wf) (split : g.fields = before ++ f :: after)
    (passes : ∀ h ∈ before, g.Passes h) {e : EntryItems} {code : ErrorCode} (he : f.entry = some e)
    (fails : g.FailsWith f e code) : ∃ left, g.StandsWith before left ∧
      g.walk g.entryFields = { page := (g.walked before left).failWalk f code, failure := some code } := by
  obtain ⟨left, stands, run⟩ :=
    Page.walk_run law before [] (f :: after) (by simpa using split) g.cells (Page.standsWith_nil wf) passes
  rw [List.nil_append] at stands run
  refine ⟨left, stands, ?_⟩
  have fails' : (g.walked before left).FailsWith f e code := by
    unfold Page.FailsWith
    rw [stands.fieldCodes (law.apart split)]
    exact fails
  rw [g.walked_nil, ← split, List.filter_cons_of_pos (by simp [Field.isEntry, he])] at run
  refine run.trans ?_
  simp [Page.walk, Page.walkTest_of_fails he fails']

end walk

end Sys2Proof.Machine

/-! # Send keys

A send in terms of what validation leaves of the page (R81 to R86), and the entry report it makes (R147). -/

namespace Sys2Proof.Machine

/-! ## The entry report -/

theorem contentLength_concat (codes : List Byte) (b : Byte) :
    contentLength (codes ++ [b]) = if b = 0x00#8 then contentLength codes else codes.length + 1 := by
  by_cases h : b = 0x00#8 <;> simp [contentLength, h]

/-- R42: a run's content ends with its last non-null cell. -/
theorem contentLength_eq {codes : List Byte} {n : Nat} (inside : n ≤ codes.length)
    (tail : ∀ i, n ≤ i → i < codes.length → codes.getD i 0x00#8 = 0x00#8)
    (last : n ≠ 0 → codes.getD (n - 1) 0x00#8 ≠ 0x00#8) : contentLength codes = n := by
  induction codes using List.reverseRecOn with
  | nil => exact (Nat.le_zero.1 inside).symm
  | append_singleton codes b ih =>
    have end_ : (codes ++ [b]).getD codes.length 0x00#8 = b := by simp
    have front (i : Nat) (h : i < codes.length) : (codes ++ [b]).getD i 0x00#8 = codes.getD i 0x00#8 :=
      List.getD_append _ _ _ _ h
    rw [List.length_append, List.length_singleton] at inside tail
    rw [contentLength_concat]
    by_cases hn : n = codes.length + 1
    · have nonNull : b ≠ 0x00#8 := by
        rw [← end_]
        simpa [hn] using last (by omega)
      rw [if_neg nonNull, hn]
    · have null : b = 0x00#8 := end_ ▸ tail codes.length (by omega) (by omega)
      rw [if_pos null]
      refine ih (by omega) (fun i h1 h2 => front i h2 ▸ tail i h1 (by omega)) fun h => ?_
      rw [← front _ (by omega)]
      exact last h

/-- R147: a field of the report has the number and the start of a field of the page, and the length of its content. -/
theorem Page.sentField_eq {g : Page} {f : Field} {x : SentField} (number : x.number = f.number) (start : x.start = f.start)
    (inside : x.length ≤ f.length)
    (tail : ∀ a, f.start + x.length ≤ a → a < f.start + f.length → g.cells.read a = 0x00#8)
    (last : x.length ≠ 0 → g.cells.read (f.start + x.length - 1) ≠ 0x00#8) : g.sentField f = x := by
  have code (i : Nat) (h : i < f.length) : (g.fieldCodes f).getD i 0x00#8 = g.cells.read (f.start + i) := by
    simpa using g.getD_fieldCodes (f := f) (a := f.start + i) (by omega) (by omega)
  have length : contentLength (g.fieldCodes f) = x.length := by
    refine contentLength_eq (by simpa using inside) (fun i h1 h2 => ?_) fun h => ?_
    · rw [Page.length_fieldCodes] at h2
      rw [code i h2]
      exact tail _ (by omega) (by omega)
    · rw [code _ (by omega), ← Nat.add_sub_assoc (by omega)]
      exact last h
  rw [Page.sentField, g.codesOf_eq, length, ← number, ← start]

/-- R147: the report of a page lists its modified fields, and a walk keeps which those are. -/
theorem Page.sentFields_walked {g : Page} {done : List Field} {cells : Cells} {fields : List SentField}
    (listed : (g.fields.filter fun f => f.modified).Forall₂ (fun f x => x.number = f.number ∧ x.start = f.start ∧
      x.length ≤ f.length ∧ (∀ a, f.start + x.length ≤ a → a < f.start + f.length → cells.read a = 0x00#8) ∧
      (x.length ≠ 0 → cells.read (f.start + x.length - 1) ≠ 0x00#8)) fields) :
    ((g.walked done cells).fields.filter (·.modified)).map (g.walked done cells).sentField = fields := by
  have kept : ((g.walked done cells).fields.filter (·.modified)).map (g.walked done cells).sentField =
      (g.fields.filter (·.modified)).map (g.walked done cells).sentField := by
    simp only [Page.walked, Page.clearedIn, List.filter_map, List.map_map]
    simp [Function.comp_def, Page.sentField, Page.codesOf]
  rw [kept, ← List.forall₂_eq_eq_eq, List.forall₂_map_left_iff]
  exact listed.imp fun f x ⟨number, start, inside, tail, last⟩ => Page.sentField_eq number start inside tail last

/-! ## The notice -/

/-- R45: the page as a key that is taken finds it, without notice code. -/
def Page.unnoticed (g : Page) : Page := { g with notice := none }

theorem Page.fieldLaw_unnoticed {g : Page} (law : g.FieldLaw) : g.unnoticed.FieldLaw :=
  ⟨law.cursor, law.extent, law.order, law.numbers, law.named, law.links, law.linkOnce⟩

/-! ## The check of the cursor's field -/

section cursor

variable {g : Page} {f : Field} {e : EntryItems} {out : List Byte}

/-- R81: with no touched field under the cursor, validation begins with the walk. -/
theorem Page.validateSend_of_untouched (untouched : g.cursorUntouched) : g.validateSend = g.walk g.entryFields := by
  have none_ : g.validateCursorField = { page := g, failure := none } := by
    unfold Page.validateCursorField
    split
    · rename_i f at_
      rw [untouched f at_]
      rfl
    · rfl
  rw [Page.validateSend, none_]

theorem Page.mem_of_entryAt {position : Nat} (at_ : g.entryAt position = some f) :
    f ∈ g.fields ∧ g.fieldAt position = some f := by
  have found : g.fieldAt position = some f := (Option.filter_eq_some_iff.1 at_).1
  exact ⟨List.mem_of_find?_eq_some found, found⟩

/-- The touched field under the cursor is checked first (R81). -/
theorem Page.validateCursorField_of_touched (at_ : g.entryAt g.cursor = some f) (he : f.entry = some e)
    (touched : e.touched = true) :
    (∀ out, exitCheck e f.length (g.fieldCodes f) = .pass out →
      g.validateCursorField = { page := g.passExit f out, failure := none }) ∧
    ∀ code, exitCheck e f.length (g.fieldCodes f) = .fail code →
      g.validateCursorField = { page := g.failExit f code, failure := some code } := by
  have touched' : f.touched = true := by simp [Field.touched, he, touched]
  constructor <;> intro _ checked <;>
    simp only [Page.validateCursorField, at_, touched', if_true, Page.checkField, he, g.codesOf_eq, checked]

/-- R81: a failing check of the cursor's field ends the validation. -/
theorem Page.validateSend_of_failExit (at_ : g.entryAt g.cursor = some f) (he : f.entry = some e)
    (touched : e.touched = true) {code : ErrorCode} (fail : exitCheck e f.length (g.fieldCodes f) = .fail code) :
    g.validateSend = { page := g.failExit f code, failure := some code } := by
  rw [Page.validateSend, (Page.validateCursorField_of_touched at_ he touched).2 code fail]

/-- A page whose fields have been changed in their entry items only finds the changed field at the cell. -/
theorem Page.fieldAt_updEntry (n : Nat) (change : EntryItems → EntryItems) (position : Nat) :
    (g.updEntry n change).fieldAt position =
      (g.fieldAt position).map fun h => if h.number = n then h.mapEntry change else h := by
  have holds (h : Field) : (if h.number = n then h.mapEntry change else h).holds position = h.holds position := by
    split <;> rfl
  simp only [Page.fieldAt, Page.updEntry, Page.updField, List.find?_map, Function.comp_def, holds]

/-- R81: the cursor's field is untouched once its exit check has passed. -/
theorem Page.cursorUntouched_passExit (at_ : g.entryAt g.cursor = some f) : (g.passExit f out).cursorUntouched := by
  intro h found
  have write : (g.writeChecked f out).fieldAt g.cursor = g.fieldAt g.cursor := by simp [Page.fieldAt]
  have cursor : (g.passExit f out).cursor = g.cursor := by rw [Page.passExit, Page.writeChecked_eq]; rfl
  have changed := (Page.mem_of_entryAt found).2
  rw [cursor, Page.passExit, Page.fieldAt_updEntry, write, (Page.mem_of_entryAt at_).2, Option.map_some, if_pos rfl] at changed
  obtain rfl := Option.some.inj changed
  cases he : f.entry <;> simp [Field.touched, Field.mapEntry, he, EntryItems.exitPassed]

/-- R81: after a passing check of the cursor's field, validation goes on as on the page that the check leaves. -/
theorem Page.validateSend_passExit (at_ : g.entryAt g.cursor = some f) (he : f.entry = some e) (touched : e.touched = true)
    (pass : exitCheck e f.length (g.fieldCodes f) = .pass out) : (g.passExit f out).validateSend = g.validateSend := by
  rw [Page.validateSend_of_untouched (Page.cursorUntouched_passExit at_), Page.validateSend,
    (Page.validateCursorField_of_touched at_ he touched).1 out pass]

/-- R83: the cursor is taken to a field that does not hold it, and the field's chain becomes current. -/
def Page.placedAt (g : Page) (f : Field) : Page :=
  if f.start ≤ g.cursor ∧ g.cursor < f.start + f.length then g
  else
    match g.memberOf f.number with
    | none => { g with cursor := f.start }
    | some (d, i) => { g with
        cursor := f.start
        chains := g.chains.set d.val (g.chains[d.val].map fun ch => { ch with index := i })
        current := some d }

/-- R83: the page at whose field the walk fails. -/
theorem Page.failWalk_eq (g : Page) (f : Field) (code : ErrorCode) :
    g.failWalk f code = (g.updEntry f.number (·.sendFailed code)).placedAt f := by
  have holds : f.holds g.cursor = true ↔ f.start ≤ g.cursor ∧ g.cursor < f.start + f.length := by simp [Field.holds]
  have members (m : Page) : ({ m with cursor := f.start } : Page).memberOf f.number = m.memberOf f.number := rfl
  have cursor : (g.updEntry f.number (·.sendFailed code)).cursor = g.cursor := rfl
  unfold Page.failWalk Page.placedAt
  by_cases inside : f.start ≤ g.cursor ∧ g.cursor < f.start + f.length
  · simp only [holds.2 inside, cursor, inside, and_self, if_true]
  · simp only [mt holds.1 inside, cursor, inside, if_false, Bool.false_eq_true, Page.selectMember, members]
    cases (g.updEntry f.number (·.sendFailed code)).memberOf f.number <;> rfl

/-- Error hold writes the notice, whatever it was. -/
theorem Page.held_placedAt_unnoticed (g : Page) (f : Field) (code : ErrorCode) :
    (g.unnoticed.placedAt f).held code = (g.placedAt f).held code := by
  have members : g.unnoticed.memberOf f.number = g.memberOf f.number := rfl
  have cursor : g.unnoticed.cursor = g.cursor := rfl
  unfold Page.placedAt
  rw [members, cursor]
  by_cases inside : f.start ≤ g.cursor ∧ g.cursor < f.start + f.length
  · rw [if_pos inside, if_pos inside]
    rfl
  · rw [if_neg inside, if_neg inside]
    cases g.memberOf f.number <;> rfl

end cursor

/-! ## Sends -/

section send

variable {s : State} {p : PageNum} {id : Nat} {v : Page}

/-- A send depends on the page by what validation makes of it. -/
theorem State.send_setPage_congr {g h : Page} (same : g.validateSend = h.validateSend) :
    (s.setPage p g).send p id = (s.setPage p h).send p id := by
  simp only [State.send, State.page_setPage_self, State.setPage_setPage, same]

/-- R65, R81, R83: a failed validation holds the page. -/
theorem State.send_of_failure {g : Page} {code : ErrorCode} (fails : g.validateSend = { page := v, failure := some code }) :
    (s.setPage p g).send p id = { s.setPage p (v.held code) with keys := { s.keys with queue := [] } } := by
  simp only [State.send, State.page_setPage_self, State.setPage_setPage, fails, State.enterHold_eq]
  rfl

/-- R84: a valid page is refused E-LINK while no report entry is free. -/
theorem State.send_of_full {g : Page} (passes : g.validateSend = { page := v, failure := none })
    (full : 8 ≤ s.reports.queue.length) :
    (s.setPage p g).send p id = s.setPage p { v with notice := some .eLink } := by
  have full' : (s.setPage p v).queueFull = true := decide_eq_true full
  simp only [State.send, State.page_setPage_self, State.setPage_setPage, passes, full', if_true, State.setNotice_eq]

/-- R16, R85: the state after an accepted send, before the ready queue's head takes the place. -/
def State.sentOff (s : State) (p : PageNum) (v : Page) (id : Nat) : State :=
  { s.setPage p v.sent with reports := { s.reports with queue := s.reports.queue ++ [.entry (entryReportOf p v.sent id)] } }

theorem State.page_sentOff_ne {q : PageNum} (ne : q ≠ p) : (s.sentOff p v id).page q = s.page q :=
  State.page_setPage_ne s p q v.sent ne.symm

/-- R16, R85: a valid page is sent while a report entry is free. -/
theorem State.send_of_free {g : Page} (passes : g.validateSend = { page := v, failure := none })
    (free : s.reports.queue.length < 8) : (s.setPage p g).send p id = (s.sentOff p v id).leaveActive.promote := by
  have free' : (s.setPage p v).queueFull = false := decide_eq_false (Nat.not_le.2 free)
  simp only [State.send, State.page_setPage_self, State.setPage_setPage, passes, free', Bool.false_eq_true, if_false,
    State.acceptSend, State.updPage]
  rfl

end send

/-! ## The keys -/

section keys

variable {s : State} {p : PageNum} {c : Instr} {id : Nat}

/-- R44: the function keys' codes. -/
theorem keyOfByte_functionKey : ∀ k : Fin 12,
    keyOfByte (byteOf (0x91 + k.val)) = .send (k.val + 1) ∧ byteOf (0x91 + k.val) ≠ 0x1D#8 := by decide

/-- R45: a send key taken on the active page first clears the last notice code. -/
theorem exec_sendKey (editing : s.editing p)
    (key : c = .enter ∧ id = 0 ∨ ∃ k : Fin 12, c = .functionKey k ∧ id = k.val + 1) :
    exec c s = .next ((s.setPage p (s.page p).unnoticed).send p id) := by
  rcases key with ⟨rfl, rfl⟩ | ⟨k, rfl, rfl⟩
  · exact congrArg Host.Outcome.next (State.takeInput_editing s p 0x8E#8 editing (by decide))
  · obtain ⟨acts, marker⟩ := keyOfByte_functionKey k
    refine congrArg Host.Outcome.next ((State.takeInput_editing s p _ editing marker).trans ?_)
    rw [acts]
    rfl

/-- R90: a change of the active page that keeps its hold and its mark keeps it open to the operator. -/
theorem State.editing_setPage {g : Page} (editing : s.editing p) (hold : g.hold = (s.page p).hold)
    (mark : g.inFlight = (s.page p).inFlight) : (s.setPage p g).editing p := by
  obtain ⟨active, free, inhibited, frame⟩ := editing
  refine ⟨active, by simpa [hold] using free, ?_, frame⟩
  rw [← inhibited]
  simp only [State.inhibited, State.setPage_active, State.setPage_interp, active]
  split <;> simp_all

end keys

/-- Settles O50: the check of the cursor's field, then the walk along the fields, then the send. -/
theorem sendKeysSendThePage : Obligations.SendKeysSendThePage := by
  intro s p c id editing law wf key
  have acts := exec_sendKey editing key
  have law' := Page.fieldLaw_unnoticed law
  refine ⟨fun f e at_ he touched => ⟨fun code fail => ?_, fun out pass => ?_⟩, fun untouched => ⟨fun passes => ?_, ?_⟩⟩
  · have validated := Page.validateSend_of_failExit (g := (s.page p).unnoticed) at_ he touched fail
    rw [acts, State.send_of_failure validated]
    rfl
  · obtain ⟨lower, -, upper⟩ := law.extent f (Page.mem_of_entryAt at_).1
    obtain ⟨wf', read⟩ := Page.cells_writeChecked (g := (s.page p).unnoticed) wf lower upper he
      (length_of_exitCheck pass (by simp))
    have validated := Page.validateSend_passExit (g := (s.page p).unnoticed) at_ he touched pass
    refine ⟨_, wf', read, ?_⟩
    rw [acts, exec_sendKey (State.editing_setPage editing (by rfl) (by rfl)) key, State.page_setPage_self,
      State.setPage_setPage, ← State.send_setPage_congr validated, Page.passExit, Page.writeChecked_eq]
    rfl
  · obtain ⟨cells, stands, walk⟩ := Page.walk_passes law' wf passes
    rw [← Page.validateSend_of_untouched (g := (s.page p).unnoticed) untouched] at walk
    refine ⟨cells, stands, fun full => ?_, fun free fields listed => ?_⟩
    · rw [acts, State.send_of_full walk full]
      rfl
    · have report := Page.sentFields_walked (g := (s.page p).unnoticed) (done := (s.page p).fields) listed
      rw [acts, State.send_of_free walk free]
      refine ⟨fun ready => ?_, fun q rest ready ne buffer => ?_⟩
      · rw [State.promote_empty (by exact ready), ← report]
        rfl
      · rw [State.leaveActive_promote (by exact ready) (by exact buffer), State.page_sentOff_ne ne, ← report]
        rfl
  · intro before after f e code split passes he fails
    obtain ⟨cells, stands, walk⟩ := Page.walk_fails law' wf split passes he fails
    rw [← Page.validateSend_of_untouched (g := (s.page p).unnoticed) untouched, Page.failWalk_eq] at walk
    refine ⟨cells, stands, ?_⟩
    rw [acts, State.send_of_failure walk]
    exact congrArg (fun v => Host.Outcome.next { s.setPage p v with keys := { s.keys with queue := [] } })
      (Page.held_placedAt_unnoticed (((s.page p).walked before cells).updEntry f.number (·.sendFailed code)) f code)

end Sys2Proof.Machine

/-! # The Field Table's laws

What every step keeps of the field lists, the cursors and the chains (R25, R32, R33, R43, R116). Most events only tend a
page: no field is redefined, no chain gets other members, the cursor goes to a cell. What is more than that, an order of the
Field Table or the step of a chain, keeps each of the two laws by itself. -/

namespace Sys2Proof.Machine

/-! ## What a field is defined as -/

/-- A field as DEFINE made it: its tag and its marks, which keys, scans and orders change, left out (R26 to R28). -/
def Field.definition (f : Field) : Field :=
  { f.mapEntry fun e => { e with touched := false, checkError := none, hostMark := none } with modified := false }

section definition

variable (f : Field)

@[simp] theorem Field.definition_number : f.definition.number = f.number := rfl
@[simp] theorem Field.definition_start : f.definition.start = f.start := rfl
@[simp] theorem Field.definition_length : f.definition.length = f.length := rfl
@[simp] theorem Field.definition_continuation : f.definition.continuation = f.continuation := by
  cases h : f.entry <;> simp [Field.definition, Field.continuation, Field.mapEntry, h]
@[simp] theorem Field.definition_isAlpha : f.definition.isAlpha = f.isAlpha := by
  cases h : f.entry <;> simp [Field.definition, Field.isAlpha, Field.mapEntry, h]

/-- The field takes scans (R27). -/
def Field.takesScans : Bool := f.entry.any (·.source ≠ .key)

@[simp] theorem Field.definition_takesScans : f.definition.takesScans = f.takesScans := by
  cases h : f.entry <;> simp [Field.definition, Field.takesScans, Field.mapEntry, h]

/-- A change of the marks leaves what the field is defined as. -/
theorem Field.definition_mapEntry {change : EntryItems → EntryItems}
    (h : ∀ e, ({ change e with touched := false, checkError := none, hostMark := none } : EntryItems) =
      { e with touched := false, checkError := none, hostMark := none }) :
    (f.mapEntry change).definition = f.definition := by
  simp only [Field.definition, Field.mapEntry, Option.map_map, Function.comp_def, h]

theorem Field.definition_modified (b : Bool) : ({ f with modified := b } : Field).definition = f.definition := rfl

theorem Field.definition_acted : f.acted.definition = f.definition :=
  (Field.definition_modified _ true).trans (f.definition_mapEntry fun _ => rfl)

theorem Field.definition_touch : f.touch.definition = f.definition := f.definition_mapEntry fun _ => rfl

theorem Field.definition_deposited : f.deposited.definition = f.definition :=
  (Field.definition_modified _ true).trans (f.definition_mapEntry fun _ => rfl)

theorem Field.definition_afterEdit (before after : Cells) (group acting : List Nat) (touch : Nat) :
    (f.afterEdit before after group acting touch).definition = f.definition := by
  unfold Field.afterEdit
  split
  · split
    · exact (Field.definition_touch _).trans f.definition_acted
    · exact f.definition_acted
  · split <;> rfl

end definition

/-! ## Tending a page -/

/-- Every field of the page has a cell and lies inside the page (R26). -/
def Page.Inside (g : Page) : Prop := ∀ f ∈ g.fields, 1 ≤ f.length ∧ f.start + f.length ≤ 1920

theorem Page.FieldLaw.inside {g : Page} (h : g.FieldLaw) : g.Inside := fun f hf =>
  ⟨(h.extent f hf).1, (h.extent f hf).2.2⟩

theorem Page.Inside.start {g : Page} (h : g.Inside) {f : Field} (hf : f ∈ g.fields) : f.start < 1920 := by
  have := h f hf
  omega

/-- A change of a page that redefines no field and gives no chain other members: the cursor stays on a cell, a chain may get
another index, and another chain may become current. -/
structure Page.Tended (g h : Page) : Prop where
  defs : h.fields.map Field.definition = g.fields.map Field.definition
  cursor : g.cursor < 1920 → g.Inside → h.cursor < 1920
  chains : ∀ c : ChainId, h.chains[c.val] = g.chains[c.val] ∨ ∃ k i, g.chains[c.val] = some k ∧ i < k.members.length ∧
    h.chains[c.val] = some { k with index := i }
  current : h.current = g.current ∨ ∃ c : ChainId, h.current = some c ∧ g.chains[c.val].isSome = true

section tended

variable {g h k : Page}

/-- A field of a tended page was a field before, but for its tag and marks. -/
theorem Page.mem_of_defs (defs : h.fields.map Field.definition = g.fields.map Field.definition) {f : Field}
    (hf : f ∈ h.fields) : ∃ e ∈ g.fields, e.definition = f.definition :=
  List.mem_map.1 (defs ▸ List.mem_map_of_mem hf)

theorem Page.Inside.of_defs (defs : h.fields.map Field.definition = g.fields.map Field.definition) (inside : g.Inside) :
    h.Inside := fun f hf => by
  obtain ⟨e, he, same⟩ := Page.mem_of_defs defs hf
  rw [← f.definition_length, ← f.definition_start, ← same]
  exact inside e he

theorem Page.Tended.of_same (defs : h.fields.map Field.definition = g.fields.map Field.definition)
    (cursor : h.cursor = g.cursor) (chains : h.chains = g.chains) (current : h.current = g.current) : g.Tended h :=
  ⟨defs, fun a _ => cursor ▸ a, fun _ => .inl (by rw [chains]), .inl current⟩

theorem Page.Tended.refl (g : Page) : g.Tended g := .of_same rfl rfl rfl rfl

theorem Page.Tended.isSome_chain (a : g.Tended h) (c : ChainId) :
    h.chains[c.val].isSome = true → g.chains[c.val].isSome = true := by
  rcases a.chains c with e | ⟨k, i, e, -, e'⟩ <;> simp_all

theorem Page.Tended.trans (a : g.Tended h) (b : h.Tended k) : g.Tended k where
  defs := b.defs.trans a.defs
  cursor below inside := b.cursor (a.cursor below inside) (inside.of_defs a.defs)
  chains c := by
    rcases b.chains c with e | ⟨x, i, e, below, e'⟩
    · rw [e]
      exact a.chains c
    · rcases a.chains c with d | ⟨y, j, d, -, d'⟩
      · exact .inr ⟨x, i, d ▸ e, below, e'⟩
      · obtain rfl := Option.some.inj (d'.symm.trans e)
        exact .inr ⟨y, i, d, below, e'⟩
  current := by
    rcases b.current with e | ⟨c, e, there⟩
    · rw [e]
      exact a.current
    · exact .inr ⟨c, e, a.isSome_chain c there⟩

/-- R26, R32, R33, R43: a tended page keeps the law of its fields. -/
theorem Page.Tended.fieldLaw (a : g.Tended h) (law : g.FieldLaw) : h.FieldLaw := by
  have numbers : (h.fields.map (·.number)).Nodup := by
    have := congrArg (List.map Field.number) a.defs
    simp only [List.map_map, Function.comp_def, Field.definition_number] at this
    rw [this]
    exact law.numbers
  refine ⟨a.cursor law.cursor law.inside, fun f hf => ?_, ?_, numbers, fun f hf => ?_, fun f hf n link => ?_,
    fun f hf x hx n link link' => ?_⟩
  · obtain ⟨e, he, same⟩ := Page.mem_of_defs a.defs hf
    rw [← f.definition_length, ← f.definition_start, ← same]
    exact law.extent e he
  · have order : (g.fields.map Field.definition).Pairwise fun f x => f.start + f.length ≤ x.start :=
      List.pairwise_map.2 law.order
    exact List.pairwise_map.1 (a.defs ▸ order)
  · obtain ⟨e, he, same⟩ := Page.mem_of_defs a.defs hf
    rw [← f.definition_number, ← same]
    exact law.named e he
  · obtain ⟨e, he, same⟩ := Page.mem_of_defs a.defs hf
    rw [← f.definition_continuation, ← same, e.definition_continuation] at link
    obtain ⟨alpha, x, hx, number, alpha', behind⟩ := law.links e he n link
    obtain ⟨y, hy, same'⟩ := Page.mem_of_defs a.defs.symm hx
    rw [← f.definition_isAlpha, ← f.definition_start, ← f.definition_length, ← same]
    refine ⟨by simpa using alpha, y, hy, ?_⟩
    rw [← y.definition_number, ← y.definition_isAlpha, ← y.definition_start, same']
    exact ⟨number, by simpa using alpha', behind⟩
  · obtain ⟨e, he, same⟩ := Page.mem_of_defs a.defs hf
    obtain ⟨y, hy, same'⟩ := Page.mem_of_defs a.defs hx
    rw [← f.definition_continuation, ← same, e.definition_continuation] at link
    rw [← x.definition_continuation, ← same', y.definition_continuation] at link'
    obtain rfl := law.linkOnce e he y hy n link link'
    exact List.inj_on_of_nodup_map numbers hf hx
      (by rw [← f.definition_number, ← x.definition_number, ← same, ← same'])

/-- R116: a tended page keeps the law of its chains. -/
theorem Page.Tended.chainLaw (a : g.Tended h) (law : g.ChainLaw) : h.ChainLaw := by
  have before {c : ChainId} {k : Chain} (e : h.chains[c.val] = some k) :
      ∃ x i, g.chains[c.val] = some x ∧ i < x.members.length ∧ k = { x with index := i } := by
    rcases a.chains c with same | ⟨x, i, there, below, e'⟩
    · exact ⟨k, k.index, same ▸ e, (law.record c k (same ▸ e)).2.2.1, rfl⟩
    · exact ⟨x, i, there, below, Option.some.inj (e.symm.trans e')⟩
  refine ⟨fun c k e => ?_, fun c k e n hn => ?_, fun c d k l e e' n hn hn' => ?_, fun c e => ?_⟩
  · obtain ⟨x, i, there, below, rfl⟩ := before e
    obtain ⟨once, few, -, counts⟩ := law.record c x there
    exact ⟨once, few, below, counts⟩
  · obtain ⟨x, i, there, -, rfl⟩ := before e
    obtain ⟨f, hf, number, scans⟩ := law.member c x there n hn
    obtain ⟨y, hy, same⟩ := Page.mem_of_defs a.defs.symm hf
    refine ⟨y, hy, ?_, ?_⟩
    · rw [← y.definition_number, same]
      exact number
    · rw [← Field.takesScans, ← y.definition_takesScans, same]
      exact f.definition_takesScans.trans scans
  · obtain ⟨x, i, there, -, rfl⟩ := before e
    obtain ⟨y, j, there', -, rfl⟩ := before e'
    exact law.once c d x y there there' n hn hn'
  · have there : g.chains[c.val].isSome = true := by
      rcases a.current with e' | ⟨d, e', there⟩
      · exact law.current c (e' ▸ e)
      · obtain rfl := Option.some.inj (e'.symm.trans e)
        exact there
    rcases a.chains c with e' | ⟨_, _, _, _, e'⟩
    · rw [e']
      exact there
    · simp [e']

end tended

/-! ## Edits of a page -/

section edits

variable (g : Page)

theorem Page.tended_updField (n : Nat) {change : Field → Field} (h : ∀ f, (change f).definition = f.definition) :
    g.Tended (g.updField n change) := by
  refine .of_same ?_ rfl rfl rfl
  have same (f : Field) : (if f.number = n then change f else f).definition = f.definition := by
    split
    · exact h f
    · rfl
  simp only [Page.updField, List.map_map, Function.comp_def, same]

theorem Page.tended_updEntry (n : Nat) {change : EntryItems → EntryItems}
    (h : ∀ e, ({ change e with touched := false, checkError := none, hostMark := none } : EntryItems) =
      { e with touched := false, checkError := none, hostMark := none }) : g.Tended (g.updEntry n change) :=
  g.tended_updField n fun f => f.definition_mapEntry h

theorem Page.tended_cursor {position : Nat} (h : g.Inside → position < 1920) :
    g.Tended { g with cursor := position } :=
  ⟨rfl, fun _ => h, fun _ => .inl rfl, .inl rfl⟩

theorem Page.tended_cells (cells : Cells) : g.Tended { g with cells := cells } := .of_same rfl rfl rfl rfl

/-- A chain record after a change of one. -/
theorem Page.chain_updChain (c d : ChainId) (change : Chain → Chain) :
    (g.updChain c change).chains[d.val] = if d = c then (g.chains[c.val]).map change else g.chains[d.val] := by
  simp only [Page.updChain, Vector.getElem_set, Fin.ext_iff, eq_comm (a := c.val)]

/-- R53: the chain and the place that a member search finds. -/
theorem Page.chain_of_memberOf {n : Nat} {c : ChainId} {i : Nat} (h : g.memberOf n = some (c, i)) :
    ∃ k, g.chains[c.val] = some k ∧ k.members[i]? = some n ∧ k.members.findIdx? (· == n) = some i := by
  obtain ⟨d, -, found⟩ := List.exists_of_findSome?_eq_some h
  split at found
  · rename_i k there
    obtain ⟨j, at_, e⟩ := Option.map_eq_some_iff.1 found
    obtain ⟨rfl, rfl⟩ := Prod.mk.inj e
    refine ⟨k, there, ?_, at_⟩
    obtain ⟨below, is, -⟩ := List.findIdx?_eq_some_iff_getElem.1 at_
    rw [List.getElem?_eq_getElem below]
    exact congrArg some (by simpa using is)
  · cases found

theorem Page.tended_selectMember (n : Nat) : g.Tended (g.selectMember n) := by
  unfold Page.selectMember
  split
  · rename_i c i found
    obtain ⟨k, there, at_, -⟩ := g.chain_of_memberOf found
    refine ⟨rfl, fun below _ => below, fun d => ?_, .inr ⟨c, rfl, by simp [there]⟩⟩
    by_cases e : d = c
    · subst e
      refine .inr ⟨k, i, there, (List.getElem?_eq_some_iff.1 at_).1, ?_⟩
      exact (g.chain_updChain d d _).trans (by simp [there])
    · exact .inl ((g.chain_updChain c d _).trans (if_neg e))
  · exact .refl g

theorem Page.tended_enter (n : Nat) : g.Tended (g.enter n) :=
  (g.tended_updEntry n (change := (·.entered)) fun _ => rfl).trans (Page.tended_selectMember _ n)

theorem Page.tended_arrive {position : Nat} (h : g.Inside → position < 1920) : g.Tended (g.arrive position) := by
  have moved := g.tended_cursor h
  unfold Page.arrive
  simp only
  split
  · split
    · exact moved
    · exact moved.trans (Page.tended_enter _ _)
  · exact moved

theorem Page.tended_writeChecked (f : Field) (out : List Byte) : g.Tended (g.writeChecked f out) := by
  rw [Page.writeChecked_eq]
  exact g.tended_cells _

theorem Page.tended_passExit (f : Field) (out : List Byte) : g.Tended (g.passExit f out) :=
  (g.tended_writeChecked f out).trans (Page.tended_updEntry _ _ fun _ => rfl)

theorem Page.tended_failExit (f : Field) (code : ErrorCode) : g.Tended (g.failExit f code) :=
  g.tended_updEntry _ fun _ => rfl

theorem Page.tended_failWalk {f : Field} (h : g.Inside → f.start < 1920) (code : ErrorCode) :
    g.Tended (g.failWalk f code) := by
  have marked : g.Tended (g.updEntry f.number (·.sendFailed code)) := g.tended_updEntry _ fun _ => rfl
  unfold Page.failWalk
  simp only
  split
  · exact marked
  · exact (marked.trans (Page.tended_cursor _ fun inside => h (inside.of_defs marked.defs.symm))).trans
      (Page.tended_selectMember _ _)

/-- R82: the walk tends the page that it walks over. -/
theorem Page.tended_walk {fs : List Field} (h : g.Inside → ∀ f ∈ fs, f.start < 1920) : g.Tended (g.walk fs).page := by
  induction fs generalizing g with
  | nil => exact .refl g
  | cons f fs ih =>
    simp only [Page.walk]
    split
    · exact ih g fun inside e he => h inside e (List.mem_cons_of_mem _ he)
    · have passed : g.Tended ((g.writeChecked f ‹_›).updEntry f.number (·.checkPassed)) :=
        (g.tended_writeChecked f _).trans (Page.tended_updEntry _ _ fun _ => rfl)
      exact passed.trans (ih _ fun inside e he => h (inside.of_defs passed.defs.symm) e (List.mem_cons_of_mem _ he))
    · exact g.tended_failWalk (fun inside => h inside f (by simp)) _

theorem Page.tended_validateCursorField : g.Tended g.validateCursorField.page := by
  unfold Page.validateCursorField
  split
  · split
    · split
      · exact g.tended_passExit _ _
      · exact g.tended_failExit _ _
    · exact .refl g
  · exact .refl g

theorem Page.mem_entryFields {f : Field} (h : f ∈ g.entryFields) : f ∈ g.fields := (List.mem_filter.1 h).1

theorem Page.tended_validateSend : g.Tended g.validateSend.page := by
  have first := g.tended_validateCursorField
  unfold Page.validateSend
  split
  · rename_i h
    rw [h] at first
    exact first.trans (Page.tended_walk _ fun inside f hf => inside.start (Page.mem_entryFields _ hf))
  · exact first

theorem Page.tended_editAction (group : List Field) (acting : List Nat) (touch : Nat) (writes : List (Nat × Byte)) :
    g.Tended (g.editAction group acting touch writes) := by
  refine .of_same ?_ rfl rfl rfl
  simp only [Page.editAction, List.map_map, Function.comp_def, Field.definition_afterEdit]

theorem Page.tended_deleteAt (f : Field) : g.Tended (g.deleteAt f) := g.tended_editAction _ _ _ _

/-- R34: the head that the links back from a field lead to is a field of the page. -/
theorem Page.headFrom_mem (fuel : Nat) {f : Field} (h : f ∈ g.fields) : g.headFrom fuel f ∈ g.fields := by
  induction fuel generalizing f with
  | zero => exact h
  | succ fuel ih =>
    simp only [Page.headFrom]
    split
    · exact ih (List.mem_of_find?_eq_some ‹_›)
    · exact h

theorem Page.head?_runFrom (fuel : Nat) (f : Field) : (g.runFrom fuel f).head? = some f := by
  cases fuel with
  | zero => rfl
  | succ fuel =>
    simp only [Page.runFrom]
    split <;> rfl

theorem Page.head?_group (f : Field) : (g.group f).head? = some (g.headFrom g.fields.length f) :=
  g.head?_runFrom _ _

theorem Page.tended_clearGroup {f : Field} (h : f ∈ g.fields) : g.Tended (g.clearGroup f) := by
  refine .trans (g.tended_arrive fun inside => ?_) (Page.tended_editAction _ _ _ _ _)
  rw [Page.head?_group]
  exact inside.start (g.headFrom_mem _ h)

theorem Page.tended_deposit (f : Field) (cells : Cells) :
    g.Tended { ({ g with cells := cells }.updField f.number (·.deposited)) with notice := none } :=
  ((g.tended_cells cells).trans (Page.tended_updField _ f.number Field.definition_deposited)).trans
    (.of_same rfl rfl rfl rfl)

end edits

/-! ## Places the cursor goes to -/

section places

variable {g : Page} {f : Field}

/-- A field that holds a cell lies inside the page. -/
theorem Page.Inside.below_of_fieldAt {position : Nat} (inside : g.Inside) (at_ : g.fieldAt position = some f) :
    f ∈ g.fields ∧ f.start ≤ position ∧ position ≤ f.last ∧ f.last < 1920 := by
  have hf := List.mem_of_find?_eq_some at_
  have holds := List.find?_some at_
  have := inside f hf
  simp only [Field.holds, Bool.and_eq_true, decide_eq_true_eq] at holds
  unfold Field.last
  exact ⟨hf, by omega⟩

theorem Page.nextEntry_below (inside : g.Inside) (position : Nat) : g.nextEntry position < 1920 := by
  unfold Page.nextEntry
  split
  · exact inside.start (g.mem_entryFields (List.mem_of_find?_eq_some ‹_›))
  · exact inside.start (g.mem_entryFields (List.mem_of_mem_head? ‹_›))
  · decide

theorem Page.previousEntry_below (inside : g.Inside) : g.previousEntry < 1920 := by
  unfold Page.previousEntry
  split
  · exact inside.start (Page.mem_of_entryAt (Option.filter_eq_some_iff.1 ‹_›).1).1
  · split
    · exact inside.start (g.mem_entryFields (List.mem_filter.1 (List.mem_of_getLast? ‹_›)).1)
    · exact inside.start (g.mem_entryFields (List.mem_of_getLast? ‹_›))
    · decide

theorem Page.firstEntry_below (inside : g.Inside) : g.firstEntry < 1920 := by
  unfold Page.firstEntry
  cases h : g.entryFields.head? with
  | none => decide
  | some f => exact inside.start (g.mem_entryFields (List.mem_of_mem_head? h))

theorem Page.newlineEntry_below (inside : g.Inside) : g.newlineEntry < 1920 := by
  unfold Page.newlineEntry
  simp only
  split
  · exact inside.start (g.mem_entryFields (List.mem_of_find?_eq_some ‹_›))
  · exact inside.start (g.mem_entryFields (List.mem_of_mem_head? ‹_›))
  · exact Nat.mod_lt _ (by decide)

theorem Page.backspaceMove_below (inside : g.Inside) (at_ : g.entryAt g.cursor = some f) : (g.backspaceMove f).1 < 1920 := by
  obtain ⟨-, -, upper, last⟩ := inside.below_of_fieldAt (Page.mem_of_entryAt at_).2
  unfold Page.backspaceMove
  split
  · simp only
    omega
  · split
    · rename_i source found
      have := inside source (List.mem_of_find?_eq_some found)
      simp only [Field.last]
      omega
    · simp only
      omega

end places

end Sys2Proof.Machine

namespace Sys2Proof.Machine

/-! ## The operator's side

A key only tends pages. -/

/-- Every page has been tended. -/
def State.Tended (s t : State) : Prop := ∀ p : PageNum, (s.page p).Tended (t.page p)

section states

variable {s t u : State} {p : PageNum}

theorem State.Tended.refl (s : State) : s.Tended s := fun _ => .refl _

theorem State.Tended.trans (a : s.Tended t) (b : t.Tended u) : s.Tended u := fun p => (a p).trans (b p)

/-- A change outside the pages. -/
theorem State.Tended.of_pages (h : t.pages = s.pages) : s.Tended t := fun p => by
  rw [State.page, State.page, h]
  exact .refl _

theorem State.Tended.setPage {g : Page} (h : (s.page p).Tended g) : s.Tended (s.setPage p g) := fun q => by
  rw [State.page_setPage]
  split
  · subst_vars
    exact h
  · exact .refl _

/-- What an order comes to, carried out. -/
theorem State.Tended.done (h : s.Tended t) : s.Tended (OrderOutcome.done t).state := h

theorem State.Tended.updPage {f : Page → Page} (h : (s.page p).Tended (f (s.page p))) : s.Tended (s.updPage p f) :=
  .setPage h

variable (s p)

theorem State.tended_setNotice (n : Option Notice) : s.Tended (s.setNotice p n) := .updPage (.of_same rfl rfl rfl rfl)

theorem State.tended_enterHold (code : ErrorCode) : s.Tended (s.enterHold p code) :=
  .trans (.updPage (.of_same rfl rfl rfl rfl)) (.of_pages (State.dropKeys_pages _))

theorem State.tended_raiseAttention (cause : Cause) : s.Tended (s.raiseAttention p cause) := by
  unfold State.raiseAttention
  split
  · exact .updPage (.of_same rfl rfl rfl rfl)
  · exact .of_pages rfl

theorem State.tended_promote : s.Tended s.promote := by
  unfold State.promote
  split
  · rename_i q _ _ _
    exact .trans (t := s.updPage q fun g => { g with state := .active }) (.updPage (.of_same rfl rfl rfl rfl))
      (.of_pages (by simp))
  · exact .refl s

variable {s p} in
/-- An update of a page, with a change outside the pages, before a promotion. -/
theorem State.Tended.promoted {f : Page → Page} (pages : t.pages = (s.updPage p f).pages)
    (h : (s.page p).Tended (f (s.page p))) : s.Tended t.promote :=
  (State.Tended.updPage h).trans (.trans (.of_pages pages) t.tended_promote)

theorem State.tended_acceptSend (id : Nat) : s.Tended (s.acceptSend p id) :=
  .promoted (p := p) (f := (·.sent)) rfl (.of_same rfl rfl rfl rfl)

theorem State.tended_send (id : Nat) : s.Tended (s.send p id) := by
  have valid : s.Tended (s.setPage p (s.page p).validateSend.page) := .setPage (Page.tended_validateSend _)
  unfold State.send
  simp only
  split
  · exact valid.trans (State.tended_enterHold _ _ _)
  · split
    · exact valid.trans (State.tended_setNotice _ _ _)
    · exact valid.trans (State.tended_acceptSend _ _ _)

theorem State.tended_parkKey : s.Tended (s.parkKey p) := by
  unfold State.parkKey
  split
  · exact s.tended_setNotice p _
  · exact .promoted (p := p) (f := fun g => { g with state := .ready }) rfl (.of_same rfl rfl rfl rfl)

/-! ### Editing -/

theorem State.tended_exitOption (f : Field) : s.Tended (s.exitOption p f) := by
  unfold State.exitOption
  split
  · exact .refl s
  · split
    · exact .refl s
    · exact s.tended_raiseAttention p _
    · exact s.tended_send p 14

theorem State.tended_moveCursor {position : Nat} (continuation : Bool) (h : (s.page p).Inside → position < 1920) :
    s.Tended (s.moveCursor p position continuation) := by
  have arrived : s.Tended (s.setPage p ((s.page p).arrive position)) := .setPage (Page.tended_arrive _ h)
  unfold State.moveCursor
  simp only
  split
  · rename_i f _
    split
    · split
      · rename_i out _
        have passed := (s.page p).tended_passExit f out
        exact .trans (.setPage (passed.trans (Page.tended_arrive _ fun inside => h (inside.of_defs passed.defs.symm))))
          (State.tended_exitOption _ _ _)
      · exact .trans (.setPage (Page.tended_failExit _ _ _)) (State.tended_enterHold _ _ _)
    · exact arrived
  · exact arrived

theorem State.tended_advance (f : Field) (h : (s.page p).Inside → (s.page p).cursor ≤ f.last ∧ f.last < 1920) :
    s.Tended (s.advance p f) := by
  unfold State.advance
  simp only
  split
  · exact s.tended_moveCursor p _ fun inside => by
      have := h inside
      omega
  · split
    · rename_i target found
      obtain ⟨n, -, found⟩ := Option.bind_eq_some_iff.1 found
      exact s.tended_moveCursor p _ fun inside => inside.start (List.mem_of_find?_eq_some found)
    · split
      · exact s.tended_moveCursor p _ fun inside => Page.nextEntry_below inside _
      · exact s.tended_moveCursor p _ fun _ => Nat.mod_lt _ (by decide)

theorem State.tended_typeCharacter (b : Byte) : s.Tended (s.typeCharacter p b) := by
  unfold State.typeCharacter
  simp only
  split
  · exact s.tended_enterHold p _
  · rename_i f at_
    split
    · exact s.tended_enterHold p _
    · split
      · exact s.tended_enterHold p _
      · split
        · exact s.tended_enterHold p _
        · rename_i writes _
          have edited := (s.page p).tended_editAction ((s.page p).group f) [f.number] f.number writes
          refine .trans (.setPage edited) (State.tended_advance _ p f fun inside => ?_)
          rw [State.page_setPage_self] at inside ⊢
          exact ((inside.of_defs edited.defs.symm).below_of_fieldAt (Page.mem_of_entryAt at_).2).2.2

theorem State.tended_deleteKey : s.Tended (s.deleteKey p) := by
  unfold State.deleteKey
  simp only
  split
  · exact s.tended_enterHold p _
  · exact .setPage (Page.tended_deleteAt _ _)

theorem State.tended_backspaceKey : s.Tended (s.backspaceKey p) := by
  unfold State.backspaceKey
  simp only
  split
  · exact s.tended_enterHold p _
  · exact .trans (s.tended_moveCursor p _ fun inside => Page.backspaceMove_below inside ‹_›) (State.tended_deleteKey _ _)

theorem State.tended_eraseEofKey : s.Tended (s.eraseEofKey p) := by
  unfold State.eraseEofKey
  simp only
  split
  · exact s.tended_enterHold p _
  · exact .setPage (Page.tended_editAction _ _ _ _ _)

theorem State.tended_clearFieldKey : s.Tended (s.clearFieldKey p) := by
  unfold State.clearFieldKey
  simp only
  split
  · exact s.tended_enterHold p _
  · exact .setPage (Page.tended_clearGroup _ (Page.mem_of_entryAt ‹_›).1)

theorem State.tended_actKey (k : Key) : s.Tended (s.actKey p k) := by
  cases k with
  | left | right | up | down => exact s.tended_moveCursor p _ fun _ => Nat.mod_lt _ (by decide)
  | tab => exact s.tended_moveCursor p _ fun inside => Page.nextEntry_below inside _
  | backtab => exact s.tended_moveCursor p _ Page.previousEntry_below
  | home => exact s.tended_moveCursor p _ Page.firstEntry_below
  | newline => exact s.tended_moveCursor p _ Page.newlineEntry_below
  | insert => exact .updPage (.of_same rfl rfl rfl rfl)
  | delete => exact s.tended_deleteKey p
  | backspace => exact s.tended_backspaceKey p
  | eraseEof => exact s.tended_eraseEofKey p
  | clearField => exact s.tended_clearFieldKey p
  | reset => exact .refl s
  | attn => exact s.tended_raiseAttention p _
  | park => exact s.tended_parkKey p
  | send id => exact s.tended_send p id
  | character b => exact s.tended_typeCharacter p b
  | unknown => exact s.tended_setNotice p _

theorem State.tended_editKey (k : Key) : s.Tended (s.editKey k) := by
  unfold State.editKey
  split
  · split <;> exact .of_pages rfl
  · split
    · split
      · exact .updPage (.of_same rfl rfl rfl rfl)
      · exact .refl s
    · exact (s.tended_setNotice _ none).trans (State.tended_actKey _ _ k)

theorem State.tended_queueKey (code : Byte) : s.Tended (s.queueKey p code) := by
  unfold State.queueKey
  split
  · exact s.tended_setNotice p _
  · split
    · exact .of_pages rfl
    · exact s.tended_setNotice p _

theorem State.tended_takeKey (code : Byte) : s.Tended (s.takeKey code) := by
  unfold State.takeKey
  split
  · exact s.tended_editKey _
  · split
    · split
      · exact .trans (.of_pages s.dropKeys_pages) (State.tended_editKey _ _)
      · exact s.tended_editKey _
      · split
        · exact s.tended_editKey _
        · exact s.tended_queueKey _ _
    · exact s.tended_editKey _

theorem State.tended_releaseKeys (n : Nat) : s.Tended (State.releaseKeys n s) := by
  induction n generalizing s with
  | zero => exact .refl s
  | succ n ih =>
    unfold State.releaseKeys
    split
    · exact .refl s
    · rename_i code rest _
      exact .trans (.trans (.of_pages rfl) (State.tended_editKey { s with keys.queue := rest } (keyOfByte code))) (ih _)

end states

/-! ## Changes that keep the laws

A chain's step reloads its count after its action, and orders redefine fields and chains: these keep each law by itself. -/

/-- A change of a page that keeps the law of its fields and the law of its chains, and takes no field record. -/
structure Page.LawsKept (g h : Page) : Prop where
  field : g.FieldLaw → h.FieldLaw
  chain : g.ChainLaw → h.ChainLaw
  count : h.fields.length ≤ g.fields.length

/-- A change that keeps the Field Table's laws, each by itself. -/
structure State.LawsKept (s t : State) : Prop where
  field : s.FieldLaw → t.FieldLaw
  chain : s.ChainLaw → t.ChainLaw

section kept

variable {g h : Page} {s t u : State} {p : PageNum}

theorem Page.Tended.lawsKept (a : g.Tended h) : g.LawsKept h :=
  ⟨a.fieldLaw, a.chainLaw, by simpa using (congrArg List.length a.defs).le⟩

/-- A change of a page that leaves its fields and its cursor. -/
theorem Page.LawsKept.of_fields (fields : h.fields = g.fields) (cursor : h.cursor = g.cursor)
    (chain : g.ChainLaw → h.ChainLaw) : g.LawsKept h := by
  refine ⟨fun law => ⟨cursor ▸ law.cursor, ?_, ?_, ?_, ?_, ?_, ?_⟩, chain, by rw [fields]⟩ <;> rw [fields]
  exacts [law.extent, law.order, law.numbers, law.named, law.links, law.linkOnce]

theorem Page.LawsKept.trans {k : Page} (a : g.LawsKept h) (b : h.LawsKept k) : g.LawsKept k :=
  ⟨b.field ∘ a.field, b.chain ∘ a.chain, b.count.trans a.count⟩

/-- R2, R3, R37: a page without fields and chains keeps the laws while its cursor is on a cell. -/
theorem Page.LawsKept.of_empty (fields : h.fields = []) (chains : h.chains = Vector.replicate 4 none)
    (current : h.current = none) (cursor : g.cursor < 1920 → h.cursor < 1920) : g.LawsKept h where
  field law := ⟨cursor law.cursor, by simp [fields], by simp [fields], by simp [fields], by simp [fields],
    by simp [fields], by simp [fields]⟩
  chain _ := ⟨by simp [chains], by simp [chains], by simp [chains], by simp [current]⟩
  count := by simp [fields]

theorem Page.lawsKept_released (g : Page) : g.LawsKept g.released := .of_empty rfl rfl rfl fun _ => Nat.zero_lt_succ _

theorem Page.lawsKept_blank (g : Page) : g.LawsKept .blank := .of_empty rfl rfl rfl fun _ => Nat.zero_lt_succ _

theorem State.LawsKept.refl (s : State) : s.LawsKept s := ⟨id, id⟩

theorem State.LawsKept.trans (a : s.LawsKept t) (b : t.LawsKept u) : s.LawsKept u :=
  ⟨b.field ∘ a.field, b.chain ∘ a.chain⟩

/-- R25: the pool lends no more records when no page takes one. -/
theorem State.recordsInUse_le (h : ∀ p : PageNum, (t.page p).fields.length ≤ (s.page p).fields.length) :
    t.recordsInUse ≤ s.recordsInUse := by
  simp only [State.recordsInUse, allPages, List.map_cons, List.map_nil, List.sum_cons, List.sum_nil]
  have h0 := h 0
  have h1 := h 1
  have h2 := h 2
  have h3 := h 3
  have h4 := h 4
  have h5 := h 5
  omega

theorem State.LawsKept.of_kept (h : ∀ p : PageNum, (s.page p).LawsKept (t.page p)) : s.LawsKept t where
  field law := ⟨fun p => (h p).field (law.page p), (State.recordsInUse_le fun p => (h p).count).trans law.pool⟩
  chain law p := (h p).chain (law p)

theorem State.Tended.lawsKept (a : s.Tended t) : s.LawsKept t := .of_kept fun p => (a p).lawsKept

theorem State.LawsKept.done (h : s.LawsKept t) : s.LawsKept (OrderOutcome.done t).state := h

/-- A change outside the pages. -/
theorem State.LawsKept.of_pages (h : t.pages = s.pages) : s.LawsKept t := (State.Tended.of_pages h).lawsKept

theorem State.LawsKept.updPage {f : Page → Page} (h : (s.page p).LawsKept (f (s.page p))) :
    s.LawsKept (s.updPage p f) := .of_kept fun q => by
  rw [State.page_updPage]
  split
  · subst_vars
    exact h
  · exact (Page.Tended.refl _).lawsKept

end kept

/-! ### The step of a chain -/

/-- R109: a page with a chain's remaining count reloaded. -/
def Page.reloaded (g : Page) (c : ChainId) : Page := g.updChain c fun k => { k with remaining := k.count }

section step

variable {g h : Page} {s : State} {p : PageNum} {c : ChainId} {i : Nat}

theorem Page.Tended.reloaded (a : g.Tended h) (c : ChainId) : (g.reloaded c).Tended (h.reloaded c) := by
  refine ⟨a.defs, a.cursor, fun d => ?_, a.current.imp id fun ⟨d, e, there⟩ => ⟨d, e, ?_⟩⟩
  · simp only [Page.reloaded, Page.chain_updChain]
    split
    · subst_vars
      rcases a.chains d with e | ⟨k, i, e, below, e'⟩
      · exact .inl (by rw [e])
      · exact .inr ⟨{ k with remaining := k.count }, i, by simp [e], below, by simp [e']⟩
    · exact a.chains d
  · simp only [Page.reloaded, Page.chain_updChain]
    split
    · subst_vars
      simpa using there
    · exact there

/-- A change of one chain record that keeps its members keeps the law, when the record is in order after it. -/
theorem Page.ChainLaw.updChain (law : g.ChainLaw) {change : Chain → Chain}
    (members : ∀ k, (change k).members = k.members)
    (record : ∀ k, g.chains[c.val] = some k → (change k).index < k.members.length ∧ 1 ≤ (change k).remaining ∧
      (change k).remaining ≤ (change k).count ∧ (change k).count ≤ 255) : (g.updChain c change).ChainLaw := by
  have before {d : ChainId} {x : Chain} (e : (g.updChain c change).chains[d.val] = some x) :
      ∃ k, g.chains[d.val] = some k ∧ k.members = x.members ∧ (x = k ∨ d = c ∧ x = change k) := by
    rw [Page.chain_updChain] at e
    split at e
    · subst_vars
      obtain ⟨k, there, rfl⟩ := Option.map_eq_some_iff.1 e
      exact ⟨k, there, (members k).symm, .inr ⟨rfl, rfl⟩⟩
    · exact ⟨x, e, rfl, .inl rfl⟩
  refine ⟨fun d x e => ?_, fun d x e n hn => ?_, fun d d' x y e e' n hn hn' => ?_, fun d e => ?_⟩
  · obtain ⟨k, there, same, rfl | ⟨rfl, rfl⟩⟩ := before e
    · exact law.record d x there
    · obtain ⟨once, few, -⟩ := law.record d k there
      rw [members]
      exact ⟨once, few, record k there⟩
  · obtain ⟨k, there, same, -⟩ := before e
    exact law.member d k there n (same ▸ hn)
  · obtain ⟨k, there, same, -⟩ := before e
    obtain ⟨l, there', same', -⟩ := before e'
    exact law.once d d' k l there there' n (same ▸ hn) (same' ▸ hn')
  · rw [Page.chain_updChain]
    split
    · subst_vars
      simpa using law.current d e
    · exact law.current d e

theorem State.tended_chainAction (s : State) (p : PageNum) (c : ChainId) (action : Action) :
    s.Tended (s.chainAction p c action) := by
  cases action with
  | nothing => exact .refl s
  | attn => exact s.tended_raiseAttention p _
  | send => exact s.tended_send p 13

/-- R109: the count is reloaded once the action has been taken, so that the law holds again. -/
theorem Page.lawsKept_stepped (acted : (g.updChain c (·.stepped i)).Tended h) :
    g.LawsKept (h.reloaded c) := by
  have twice : (g.updChain c (·.stepped i)).reloaded c =
      g.updChain c fun k => { k.stepped i with remaining := k.count } := by
    simp only [Page.reloaded, Page.updChain, Vector.set_set, Vector.getElem_set_self, Option.map_map]
    rfl
  have kept := (acted.reloaded c).lawsKept
  rw [twice] at kept
  suffices first : g.LawsKept (g.updChain c fun k => { k.stepped i with remaining := k.count }) from first.trans kept
  refine .of_fields rfl rfl fun law => law.updChain (fun _ => rfl) fun k there => ?_
  obtain ⟨-, -, below, least, most, bound⟩ := law.record c k there
  exact ⟨Nat.mod_lt _ (Nat.zero_lt_of_lt below), least.trans most, Nat.le_refl _, bound⟩

end step

end Sys2Proof.Machine

namespace Sys2Proof.Machine

/-! ## Scans -/

section scans

variable (s : State) (p : PageNum)

theorem State.lawsKept_stepChain (c : ChainId) (i : Nat) : s.LawsKept (s.stepChain p c i) := by
  have others {q : PageNum} (ne : q ≠ p) : (s.updPage p fun g => g.updChain c (·.stepped i)).page q = s.page q := by
    rw [State.page_updPage, if_neg ne]
  unfold State.stepChain
  simp only
  split
  · rename_i k there
    split
    · have acted := State.tended_chainAction (s.updPage p fun g => g.updChain c (·.stepped i)) p c k.action
      refine .of_kept fun q => ?_
      rw [State.page_updPage]
      split
      · subst_vars
        have here := acted q
        rw [State.page_updPage_self] at here
        exact Page.lawsKept_stepped here
      · rename_i ne
        rw [← others ne]
        exact (acted q).lawsKept
    · rename_i left
      rw [State.page_updPage_self, Page.chain_updChain, if_pos rfl] at there
      refine .updPage (.of_fields rfl rfl fun law => law.updChain (fun _ => rfl) fun x e => ?_)
      obtain ⟨-, -, below, -, most, bound⟩ := law.record c x e
      obtain rfl : x.stepped i = k := by simpa [e] using there
      simp only [Chain.stepped] at left ⊢
      exact ⟨Nat.mod_lt _ (Nat.zero_lt_of_lt below), by omega, by omega, bound⟩
  · rename_i absent
    rw [State.page_updPage_self, Page.chain_updChain, if_pos rfl, Option.map_eq_none_iff] at absent
    refine .updPage (Page.Tended.lawsKept ⟨rfl, fun below _ => below, fun d => ?_, .inl rfl⟩)
    rw [Page.chain_updChain]
    split
    · subst_vars
      exact .inl (by simp [absent])
    · exact .inl rfl

theorem State.tended_followMove (f : Field) : s.Tended (s.followMove p f) := by
  unfold State.followMove
  split
  · exact s.tended_moveCursor p _ fun inside => Page.nextEntry_below inside _
  · exact .refl s

theorem State.lawsKept_deposit (f : Field) (cells : List Byte) : s.LawsKept (s.deposit p f cells) := by
  have deposited : s.Tended ((s.updPage p fun g =>
      { ({ g with cells := g.cells.writeRun f.start cells }.updField f.number (·.deposited)) with
        notice := none }).answerScan .ack) :=
    .trans (.updPage (Page.tended_deposit _ f _)) (.of_pages (State.answerScan_pages _ .ack))
  unfold State.deposit
  simp only
  split
  · exact deposited.lawsKept
  · have stepped := deposited.lawsKept.trans (State.lawsKept_stepChain _ p ‹_› ‹_›)
    split
    · exact stepped.trans (State.tended_followMove _ p f).lawsKept
    · exact stepped

theorem State.tended_rejectScan : s.Tended (s.rejectScan p) :=
  .trans (.of_pages (s.answerScan_pages _)) (State.tended_setNotice _ p _)

theorem State.tended_awaitConfirm (f : Field) (characters : List Byte) : s.Tended (s.awaitConfirm p f characters) :=
  .updPage (s := (({ s with
    scan.confirm := some { characters := characters, page := p, field := f.number }
    scan.window := some (s.interp.confirmWindow * 100) } : State).answerScan .ack)) (.of_same rfl rfl rfl rfl)

theorem State.lawsKept_takeRead (f : Field) (confirming : Bool) (characters : List Byte) :
    s.LawsKept (s.takeRead p f confirming characters) := by
  unfold State.takeRead
  split
  · exact (s.tended_rejectScan p).lawsKept
  · split
    · exact (s.tended_awaitConfirm p f characters).lawsKept
    · exact s.lawsKept_deposit p f _

theorem State.lawsKept_routeByPage (characters : List Byte) : s.LawsKept (s.routeByPage p characters) := by
  unfold State.routeByPage
  split
  · exact s.lawsKept_takeRead p _ _ _
  · exact (s.tended_rejectScan p).lawsKept

theorem State.lawsKept_routeFrame (characters : List Byte) : s.LawsKept (s.routeFrame p characters) := by
  have dropped : s.LawsKept s.dropConfirm := .of_pages s.dropConfirm_pages
  unfold State.routeFrame
  split
  · split
    · split
      · exact dropped.trans (State.lawsKept_takeRead _ p _ _ _)
      · exact dropped.trans (State.tended_rejectScan _ p).lawsKept
    · exact dropped.trans (State.lawsKept_routeByPage _ p _)
  · exact s.lawsKept_routeByPage p _

theorem State.lawsKept_judgeFrame (length : Nat) (characters : List Byte) :
    s.LawsKept (s.judgeFrame length characters) := by
  have answered (a : ScanAnswer) : s.LawsKept (s.answerScan a) := .of_pages (s.answerScan_pages a)
  unfold State.judgeFrame
  split
  · simp only
    split
    · split
      · exact (answered _).trans (State.tended_setNotice _ _ _).lawsKept
      · exact answered _
    · exact answered _
  · split
    · exact answered _
    · split
      · exact answered _
      · split
        · split
          · exact .of_pages rfl
          · exact answered _
        · exact s.lawsKept_routeFrame _ _

/-! ### The input port and held input -/

theorem State.lawsKept_input (keys : KeyInput) (scan : ScanUnit) : s.LawsKept { s with keys := keys, scan := scan } :=
  .of_pages rfl

theorem State.lawsKept_takeInputByte (b : Byte) : s.LawsKept (s.takeInputByte b) := by
  unfold State.takeInputByte
  split
  · split
    · exact .of_pages rfl
    · exact (s.tended_takeKey b).lawsKept
  · split
    · exact .trans (s.lawsKept_input _ _) (State.lawsKept_judgeFrame _ _ _)
    · exact .of_pages rfl
  · simp only
    split
    · exact .trans (s.lawsKept_input _ _) (State.lawsKept_judgeFrame _ _ _)
    · exact .of_pages rfl

theorem State.lawsKept_takeInput (codes : List Byte) : s.LawsKept (s.takeInput codes) := by
  unfold State.takeInput
  induction codes generalizing s with
  | nil => exact .refl s
  | cons b bs ih => exact (s.lawsKept_takeInputByte b).trans (ih _)

/-- R95: the release of held input. -/
theorem State.lawsKept_releaseInput : s.LawsKept s.releaseInput := by
  refine .trans ?_ (State.tended_releaseKeys s.releaseScan s.keys.queue.length).lawsKept
  unfold State.releaseScan
  split
  · exact .trans (s.lawsKept_input _ _) (State.lawsKept_routeFrame _ _ _)
  · exact .refl s

end scans

/-! ## Orders -/

section define

variable {g : Page} {f : Field}

/-- R32: a new field joins the others. -/
theorem perm_insertField (f : Field) (fs : List Field) : (insertField f fs).Perm (f :: fs) := by
  induction fs with
  | nil => exact .refl _
  | cons x xs ih =>
    simp only [insertField]
    split
    · exact .refl _
    · exact (ih.cons x).trans (.swap f x xs)

theorem mem_insertField {x : Field} {fs : List Field} : x ∈ insertField f fs ↔ x = f ∨ x ∈ fs :=
  (perm_insertField f fs).mem_iff.trans List.mem_cons

/-- R32: a field that lies apart from the others joins them at its place in positional order. -/
theorem order_insertField {fs : List Field} (order : fs.Pairwise fun x y => x.start + x.length ≤ y.start)
    (apart : ∀ x ∈ fs, x.start + x.length ≤ f.start ∨ f.start + f.length ≤ x.start) (room : 1 ≤ f.length) :
    (insertField f fs).Pairwise fun x y => x.start + x.length ≤ y.start := by
  induction fs with
  | nil => exact List.pairwise_singleton _ _
  | cons x xs ih =>
    obtain ⟨ahead, order⟩ := List.pairwise_cons.1 order
    have here := apart x (by simp)
    simp only [insertField]
    split
    · refine List.pairwise_cons.2 ⟨fun y hy => ?_, List.pairwise_cons.2 ⟨ahead, order⟩⟩
      rcases List.mem_cons.1 hy with rfl | hy
      · omega
      · have := ahead y hy
        omega
    · refine List.pairwise_cons.2 ⟨fun y hy => ?_, ih order fun y hy => apart y (List.mem_cons_of_mem _ hy)⟩
      rcases mem_insertField.1 hy with rfl | hy
      · omega
      · exact ahead y hy

/-- R29, R31: only an ALPHA field is given a continuation. -/
theorem isAlpha_of_combinationHolds {e : EntryItems} {length : Nat} (h : combinationHolds e length = true)
    (link : e.continuation ≠ none) : e.cls = .alpha := by
  cases cls : e.cls with
  | alpha => rfl
  | code | digits | amount =>
    refine absurd (Option.isNone_iff_eq_none.1 ?_) link
    simp only [combinationHolds, cls, Bool.and_eq_true] at h
    tauto

/-- R26, R30, R31: what the checks of the operands alone leave of a field that they pass. -/
theorem fieldOf_sound {d : DefineOperands} {start : Nat} (h : fieldOf d start = some f) :
    f.number ≤ 95 ∧ 1 ≤ f.length ∧ f.length ≤ 240 ∧ f.start = start ∧
      (f.continuation ≠ none → f.isAlpha = true) := by
  unfold fieldOf at h
  split at h
  · cases h
  · rename_i sizes
    split at h
    · cases h
    · simp only at h
      split at h
      · obtain rfl := Option.some.inj h
        exact ⟨by simp only; omega, by simp only; omega, by simp only; omega, rfl, by simp [Field.continuation]⟩
      · split at h
        · rename_i e _
          split at h
          · rename_i holds
            obtain rfl := Option.some.inj h
            refine ⟨by simp only; omega, by simp only; omega, by simp only; omega, rfl, fun link => ?_⟩
            simpa [Field.isAlpha] using isAlpha_of_combinationHolds holds (by simpa [Field.continuation] using link)
          · cases h
        · cases h
      · cases h

/-- R32: a number found names a field of the page. -/
theorem Page.fieldNumbered_some {n : Nat} (h : g.fieldNumbered n = some f) : f ∈ g.fields ∧ f.number = n :=
  ⟨List.mem_of_find?_eq_some h, by simpa using List.find?_some h⟩

theorem Page.fieldNumbered_none {n : Nat} : g.fieldNumbered n = none ↔ ∀ x ∈ g.fields, x.number ≠ n := by
  simp [Page.fieldNumbered]

/-- R33: no link of the page leads to a number. -/
theorem Page.linkSource_none {n : Nat} : g.linkSource n = none ↔ ∀ x ∈ g.fields, x.continuation ≠ some n := by
  simp [Page.linkSource]

/-- R33: the link of an admitted field leads to an ALPHA field behind it that no other link leads to. -/
theorem Page.linkHolds_iff : g.linkHolds f = true ↔ ∀ n, f.continuation = some n →
    (∃ x, g.fieldNumbered n = some x ∧ x.isAlpha = true ∧ f.last < x.start) ∧
      ∀ x ∈ g.fields, x.continuation ≠ some n := by
  unfold Page.linkHolds
  cases f.continuation with
  | none => simp
  | some n =>
    cases h : g.fieldNumbered n with
    | none => simp [h]
    | some x =>
      simp only [Option.some.injEq, forall_eq', h, ← Page.linkSource_none, Option.isNone_iff_eq_none, Bool.and_eq_true,
        decide_eq_true_eq, Field.isAlpha, exists_eq_left']

/-- R31, checks 3 to 6: the page has room, a free number and the link's target for the field. -/
theorem Page.admitsField_iff : g.admitsField f = true ↔ f.last ≤ 1919 ∧ (∀ x ∈ g.fields, x.number ≠ f.number) ∧
    (∀ x ∈ g.fields, x.last < f.start ∨ f.last < x.start) ∧ g.linkHolds f = true := by
  simp only [Page.admitsField, Bool.and_eq_true, decide_eq_true_eq, Option.isNone_iff_eq_none, Page.fieldNumbered_none,
    List.all_eq_true, Bool.or_eq_true, and_assoc]

/-- R26, R32, R33: an admitted field joins the page's fields without breaking their law. -/
theorem Page.FieldLaw.define (law : g.FieldLaw) (named : f.number ≤ 95) (room : 1 ≤ f.length) (most : f.length ≤ 240)
    (alpha : f.continuation ≠ none → f.isAlpha = true) (admitted : g.admitsField f = true) :
    Page.FieldLaw { g with fields := insertField f g.fields } := by
  obtain ⟨last, fresh, apart, link⟩ := Page.admitsField_iff.1 admitted
  have link := Page.linkHolds_iff.1 link
  unfold Field.last at last apart link
  have apart' : ∀ x ∈ g.fields, x.start + x.length ≤ f.start ∨ f.start + f.length ≤ x.start := fun x hx => by
    have := apart x hx
    have := law.extent x hx
    omega
  refine ⟨law.cursor, fun x hx => ?_, order_insertField law.order apart' room, ?_, fun x hx => ?_, fun x hx n link' => ?_,
    fun x hx y hy n link' link'' => ?_⟩
  · rcases mem_insertField.1 hx with rfl | hx
    · exact ⟨room, most, by omega⟩
    · exact law.extent x hx
  · rw [((perm_insertField f g.fields).map _).nodup_iff, List.map_cons, List.nodup_cons]
    exact ⟨fun there => by
      obtain ⟨x, hx, e⟩ := List.mem_map.1 there
      exact fresh x hx e, law.numbers⟩
  · rcases mem_insertField.1 hx with rfl | hx
    · exact named
    · exact law.named x hx
  · rcases mem_insertField.1 hx with rfl | hx
    · obtain ⟨⟨y, found, alpha', behind⟩, -⟩ := link n link'
      obtain ⟨hy, number⟩ := Page.fieldNumbered_some found
      exact ⟨alpha (by simp [link']), y, mem_insertField.2 (.inr hy), number, alpha', by omega⟩
    · obtain ⟨alpha', y, hy, rest⟩ := law.links x hx n link'
      exact ⟨alpha', y, mem_insertField.2 (.inr hy), rest⟩
  · rcases mem_insertField.1 hx with rfl | old
    · rcases mem_insertField.1 hy with rfl | old'
      · rfl
      · exact absurd link'' ((link n link').2 y old')
    · rcases mem_insertField.1 hy with rfl | old'
      · exact absurd link' ((link n link'').2 x old)
      · exact law.linkOnce x old y old' n link' link''

/-- R116: with another field the chains keep their members. -/
theorem Page.ChainLaw.define (law : g.ChainLaw) (f : Field) :
    Page.ChainLaw { g with fields := insertField f g.fields } :=
  ⟨law.record, fun c k e n hn => by
    obtain ⟨x, hx, rest⟩ := law.member c k e n hn
    exact ⟨x, mem_insertField.2 (.inr hx), rest⟩, law.once, law.current⟩

end define

section pool

variable {s : State} {p : PageNum} {g : Page}

/-- R25: the records in use after a page has been replaced. -/
theorem State.recordsInUse_setPage :
    (s.setPage p g).recordsInUse + (s.page p).fields.length = s.recordsInUse + g.fields.length := by
  have split : ∀ q : PageNum, ((s.setPage p g).page q).fields.length = if q = p then g.fields.length
      else (s.page q).fields.length := fun q => by
    rw [State.page_setPage]
    split <;> rfl
  simp only [State.recordsInUse, allPages, List.map_cons, List.map_nil, List.sum_cons, List.sum_nil, split]
  fin_cases p <;> simp <;> omega

/-- R25: a free record is one of the 256 that is not in use. -/
theorem State.freeRecords_eq_zero : s.freeRecords = 0 ↔ 256 ≤ s.recordsInUse := by
  simp only [State.freeRecords, State.recordsInUse]
  omega

theorem State.lawsKept_orderDefine (s : State) (p : PageNum) (writePos : Nat) (d : DefineOperands) :
    s.LawsKept (s.orderDefine p writePos d).state := by
  unfold State.orderDefine
  split
  · exact .refl s
  · rename_i f described
    obtain ⟨named, room, most, -, alpha⟩ := fieldOf_sound described
    split
    · exact .refl s
    · rename_i admitted
      split
      · exact .refl s
      · rename_i free
        rw [State.freeRecords_eq_zero] at free
        refine ⟨fun law => ⟨fun q => ?_, ?_⟩, fun law q => ?_⟩
        · simp only [OrderOutcome.state, State.page_updPage]
          split
          · exact (law.page p).define named room most alpha (by simpa using admitted)
          · exact law.page q
        · have counted := State.recordsInUse_setPage (s := s) (p := p)
            (g := { s.page p with fields := insertField f (s.page p).fields })
          simp only [(perm_insertField f _).length_eq, List.length_cons] at counted
          simp only [OrderOutcome.state, State.updPage]
          omega
        · simp only [OrderOutcome.state, State.page_updPage]
          split
          · exact (law p).define f
          · exact law q

end pool

end Sys2Proof.Machine

namespace Sys2Proof.Machine

/-! ### DROP -/

/-- R35 step 1: a field without its link to the field that is dropped. -/
def Field.unlinked (n : Nat) (f : Field) : Field :=
  f.mapEntry fun e => if e.continuation = some n then { e with continuation := none } else e

section unlinked

variable (n : Nat) (f : Field)

@[simp] theorem Field.unlinked_number : (f.unlinked n).number = f.number := rfl
@[simp] theorem Field.unlinked_start : (f.unlinked n).start = f.start := rfl
@[simp] theorem Field.unlinked_length : (f.unlinked n).length = f.length := rfl

/-- R35: the link goes, and it alone. -/
theorem Field.unlinked_eq : f.unlinked n = if f.continuation = some n then
    { f with entry := f.entry.map fun e => { e with continuation := none } } else f := by
  cases h : f.entry with
  | none =>
    rw [if_neg (by simp [Field.continuation, h])]
    simp only [Field.unlinked, Field.mapEntry, h, Option.map_none]
    rw [← h]
  | some e =>
    have link : f.continuation = e.continuation := by simp [Field.continuation, h]
    simp only [Field.unlinked, Field.mapEntry, h, Option.map_some, link]
    split
    · rfl
    · rw [← h]

theorem Field.unlinked_continuation :
    (f.unlinked n).continuation = if f.continuation = some n then none else f.continuation := by
  rw [Field.unlinked_eq]
  split
  · cases f.entry <;> simp [Field.continuation]
  · rfl

@[simp] theorem Field.unlinked_isAlpha : (f.unlinked n).isAlpha = f.isAlpha := by
  rw [Field.unlinked_eq]
  split
  · cases h : f.entry <;> simp [Field.isAlpha, h]
  · rfl

@[simp] theorem Field.unlinked_takesScans : (f.unlinked n).takesScans = f.takesScans := by
  rw [Field.unlinked_eq]
  split
  · cases h : f.entry <;> simp [Field.takesScans, h]
  · rfl

end unlinked

section drop

variable {g : Page} {n : Nat}

/-- R53: a field that a member search does not find is a member of no chain. -/
theorem Page.memberOf_none : g.memberOf n = none ↔ ∀ (c : ChainId) (k : Chain), g.chains[c.val] = some k → n ∉ k.members := by
  have everywhere (c : ChainId) : c ∈ allChains := by revert c; decide
  unfold Page.memberOf
  rw [List.findSome?_eq_none_iff]
  refine ⟨fun h c k there => ?_, fun h c _ => ?_⟩
  · have := h c (everywhere c)
    simp only [there, Option.map_eq_none_iff, List.findIdx?_eq_none_iff] at this
    exact fun member => by simpa using this n member
  · split
    · rename_i k there
      rw [Option.map_eq_none_iff, List.findIdx?_eq_none_iff]
      intro m hm
      have := h c k there
      rw [beq_eq_false_iff_ne]
      rintro rfl
      exact this hm
    · rfl

@[simp] theorem Page.leaveChain_fields (g : Page) (n : Nat) : (g.leaveChain n).fields = g.fields := by
  unfold Page.leaveChain; split <;> rfl

@[simp] theorem Page.leaveChain_cursor (g : Page) (n : Nat) : (g.leaveChain n).cursor = g.cursor := by
  unfold Page.leaveChain; split <;> rfl

/-- R35: the fields that a DROP leaves. -/
theorem Page.dropField_fields (g : Page) (n : Nat) :
    (g.dropField n).fields = (g.fields.map (Field.unlinked n)).filter (·.number != n) := by
  simp only [Page.dropField, Page.leaveChain_fields]
  rfl

theorem Page.mem_dropField {x : Field} :
    x ∈ (g.dropField n).fields ↔ ∃ f ∈ g.fields, f.number ≠ n ∧ f.unlinked n = x := by
  rw [Page.dropField_fields, List.mem_filter, List.mem_map]
  constructor
  · rintro ⟨⟨f, hf, rfl⟩, ne⟩
    exact ⟨f, hf, by simpa using ne, rfl⟩
  · rintro ⟨f, hf, ne, rfl⟩
    exact ⟨⟨f, hf, rfl⟩, by simpa using ne⟩

/-- R35: a field that is dropped goes with its links, and the law of the fields stays. -/
theorem Page.FieldLaw.dropField (law : g.FieldLaw) (n : Nat) : (g.dropField n).FieldLaw := by
  refine ⟨by simpa [Page.dropField, Page.unlink] using law.cursor, fun x hx => ?_, ?_, ?_, fun x hx => ?_,
    fun x hx m link => ?_, fun x hx y hy m link link' => ?_⟩
  · obtain ⟨f, hf, -, rfl⟩ := Page.mem_dropField.1 hx
    exact law.extent f hf
  · rw [Page.dropField_fields]
    exact List.Pairwise.filter _ (List.pairwise_map.2 law.order)
  · rw [Page.dropField_fields]
    refine List.Nodup.sublist (List.filter_sublist.map _) ?_
    rw [List.map_map]
    exact law.numbers
  · obtain ⟨f, hf, -, rfl⟩ := Page.mem_dropField.1 hx
    exact law.named f hf
  · obtain ⟨f, hf, -, rfl⟩ := Page.mem_dropField.1 hx
    rw [Field.unlinked_continuation] at link
    split at link
    · cases link
    · rename_i other
      obtain ⟨alpha, y, hy, rfl, alpha', behind⟩ := law.links f hf m link
      exact ⟨by simpa using alpha, y.unlinked n, Page.mem_dropField.2 ⟨y, hy, fun e => other (e ▸ link), rfl⟩, rfl,
        by simpa using alpha', behind⟩
  · obtain ⟨f, hf, -, rfl⟩ := Page.mem_dropField.1 hx
    obtain ⟨e, he, -, rfl⟩ := Page.mem_dropField.1 hy
    rw [Field.unlinked_continuation] at link link'
    split at link
    · cases link
    · split at link'
      · cases link'
      · rw [law.linkOnce f hf e he m link link']

/-- R36: the chain that a member leaves, with another member left. -/
theorem Chain.without_some {k l : Chain} {i : Nat} (h : k.without i = some l) :
    k.members.eraseIdx i ≠ [] ∧ l = { k with
      members := k.members.eraseIdx i
      index := if (k.members.eraseIdx i).length ≤ (if i < k.index then k.index - 1 else k.index) then 0
        else if i < k.index then k.index - 1 else k.index } := by
  unfold Chain.without at h
  simp only at h
  split at h
  · cases h
  · rename_i left
    exact ⟨by simpa using left, (Option.some.inj h).symm⟩

/-- A list without repetition does not hold what has been taken out of it. -/
theorem not_mem_eraseIdx {α : Type} {l : List α} {a : α} {i : Nat} (once : l.Nodup) (at_ : l[i]? = some a) :
    a ∉ l.eraseIdx i := by
  obtain ⟨below, rfl⟩ := List.getElem?_eq_some_iff.1 at_
  rw [List.mem_eraseIdx_iff_getElem]
  rintro ⟨j, hj, ne, e⟩
  exact ne ((once.getElem_inj_iff).1 e)

/-- R116: the records of the chains after a field has left its chain. -/
theorem Page.chain_leaveChain {c : ChainId} {l : Chain} (law : g.ChainLaw) (h : (g.leaveChain n).chains[c.val] = some l) :
    n ∉ l.members ∧ ((g.chains[c.val] = some l) ∨
      ∃ k i, g.chains[c.val] = some k ∧ k.members[i]? = some n ∧ k.without i = some l) := by
  unfold Page.leaveChain at h
  split at h
  · rename_i found
    exact ⟨Page.memberOf_none.1 found c l h, .inl h⟩
  · rename_i d i found
    obtain ⟨k, there, at_, -⟩ := g.chain_of_memberOf found
    simp only [Vector.getElem_set, Fin.val_inj] at h
    split at h
    · subst_vars
      rw [there, Option.bind_some] at h
      refine ⟨?_, .inr ⟨k, i, there, at_, h⟩⟩
      obtain ⟨-, rfl⟩ := Chain.without_some h
      exact not_mem_eraseIdx (law.record _ k there).1 at_
    · rename_i other
      refine ⟨fun member => other ?_, .inl h⟩
      exact law.once d c k l there h n (List.mem_of_getElem? at_) member

/-- R36: the current chain goes with its last member. -/
theorem Page.isSome_current_leaveChain {c : ChainId} (law : g.ChainLaw) (h : (g.leaveChain n).current = some c) :
    (g.leaveChain n).chains[c.val].isSome = true := by
  unfold Page.leaveChain at h ⊢
  cases found : g.memberOf n with
  | none =>
    simp only [found] at h ⊢
    exact law.current c h
  | some place =>
    obtain ⟨d, i⟩ := place
    simp only [found] at h ⊢
    split at h
    · cases h
    · rename_i stays
      simp only [Vector.getElem_set, Fin.val_inj]
      split
      · subst_vars
        rw [Option.isSome_iff_ne_none]
        exact fun gone => stays ⟨by simp [gone], h⟩
      · exact law.current c h

/-- R36, R116: a field that is dropped leaves its chain, and the law of the chains stays. -/
theorem Page.ChainLaw.dropField (law : g.ChainLaw) (n : Nat) : (g.dropField n).ChainLaw := by
  have law' : (g.unlink n).ChainLaw := ⟨law.record, fun c k e m hm => by
    obtain ⟨f, hf, number, scans⟩ := law.member c k e m hm
    exact ⟨f.unlinked n, List.mem_map_of_mem hf, number, (f.unlinked_takesScans n).trans scans⟩, law.once, law.current⟩
  have before {c : ChainId} {l : Chain} (h : (g.dropField n).chains[c.val] = some l) := Page.chain_leaveChain law' h
  have members {c : ChainId} {l : Chain} (h : (g.dropField n).chains[c.val] = some l) :
      ∃ k, g.chains[c.val] = some k ∧ ∀ m ∈ l.members, m ∈ k.members ∧ m ≠ n := by
    obtain ⟨gone, there | ⟨k, i, there, -, left⟩⟩ := before h
    · exact ⟨l, there, fun m hm => ⟨hm, fun e => gone (e ▸ hm)⟩⟩
    · refine ⟨k, there, fun m hm => ⟨?_, fun e => gone (e ▸ hm)⟩⟩
      obtain ⟨-, rfl⟩ := Chain.without_some left
      exact List.mem_of_mem_eraseIdx hm
  refine ⟨fun c l e => ?_, fun c l e m hm => ?_, fun c d l x e e' m hm hm' => ?_, fun c e => ?_⟩
  · obtain ⟨-, there | ⟨k, i, there, at_, left⟩⟩ := before e
    · exact law.record c l there
    · obtain ⟨once, few, below, counts⟩ := law.record c k there
      obtain ⟨some_, rfl⟩ := Chain.without_some left
      have length := List.length_eraseIdx_of_lt (List.getElem?_eq_some_iff.1 at_).1
      have := List.length_pos_iff.2 some_
      refine ⟨once.sublist (List.eraseIdx_sublist _ _), by simp only; omega, ?_, counts⟩
      simp only
      generalize (if i < k.index then k.index - 1 else k.index) = index
      split <;> omega
  · obtain ⟨k, there, old⟩ := members e
    obtain ⟨f, hf, number, scans⟩ := law.member c k there m (old m hm).1
    exact ⟨f.unlinked n, Page.mem_dropField.2 ⟨f, hf, number ▸ (old m hm).2, rfl⟩, number,
      (f.unlinked_takesScans n).trans scans⟩
  · obtain ⟨k, there, old⟩ := members e
    obtain ⟨y, there', old'⟩ := members e'
    exact law.once c d k y there there' m (old m hm).1 (old' m hm').1
  · exact Page.isSome_current_leaveChain law' e

theorem Page.lawsKept_dropField (g : Page) (n : Nat) : g.LawsKept (g.dropField n) := by
  refine ⟨fun law => law.dropField n, fun law => law.dropField n, ?_⟩
  rw [Page.dropField_fields]
  simpa using List.length_filter_le (fun f : Field => f.number != n) (g.fields.map (Field.unlinked n))

theorem Page.lawsKept_dropAll (g : Page) : g.LawsKept g.dropAll := .of_empty rfl rfl rfl id

end drop

section orders

variable (s : State) (p : PageNum)

@[simp] theorem State.dropConfirmAt_pages (dropped : Nat → Bool) : (s.dropConfirmAt p dropped).pages = s.pages := by
  unfold State.dropConfirmAt
  split
  · split <;> rfl
  · rfl

theorem State.lawsKept_orderDrop (operand : Byte) : s.LawsKept (s.orderDrop p operand).state := by
  unfold State.orderDrop
  split
  · exact .done (.trans (.updPage (Page.lawsKept_dropAll _)) (.of_pages (State.dropConfirmAt_pages _ _ _)))
  · simp only
    split
    · exact .refl s
    · exact .done (.trans (.updPage (Page.lawsKept_dropField _ _)) (.of_pages (State.dropConfirmAt_pages _ _ _)))

/-! ### The other orders -/

theorem State.tended_orderMark (operand code : Byte) : s.Tended (s.orderMark p operand code).state := by
  unfold State.orderMark
  split
  · exact .refl s
  · split
    · split
      · exact .done (.updPage (Page.tended_updEntry _ _ (change := (·.marked code.toNat)) fun _ => rfl))
      · exact .refl s
    · exact .refl s

theorem State.tended_orderUnmodify (operand : Byte) : s.Tended (s.orderUnmodify p operand).state := by
  unfold State.orderUnmodify
  split
  · refine .done (.updPage (.of_same ?_ rfl rfl rfl))
    rw [List.map_map]
    rfl
  · split
    · exact .done (.updPage (Page.tended_updField _ _ (change := Field.unmodified) fun _ => rfl))
    · exact .refl s

/-- R117: the chain that well-formed operands describe. -/
theorem chainOf_sound {operands : List Byte} {c : ChainId} {k : Chain} (h : chainOf operands = some (c, k)) :
    k.index = 0 ∧ k.remaining = k.count ∧ 1 ≤ k.count ∧ k.count ≤ 255 ∧ 1 ≤ k.members.length ∧ k.members.length ≤ 16 := by
  unfold chainOf at h
  split at h
  · rename_i _ _ count _ m members
    split at h
    · split at h
      · cases h
      · rename_i sizes
        obtain ⟨-, rfl⟩ := Prod.mk.inj (Option.some.inj h)
        have := count.isLt
        exact ⟨rfl, rfl, by simp only; omega, by simp only; omega, by simp only [List.length_map]; omega,
          by simp only [List.length_map]; omega⟩
    · cases h
  · cases h

/-- R117: a number that a chain may list. -/
theorem Page.admitsMember_sound {g : Page} {c : ChainId} {n : Nat} (h : g.admitsMember c n = true) :
    (∃ f ∈ g.fields, f.number = n ∧ f.takesScans = true) ∧
      ∀ (d : ChainId) (k : Chain), d ≠ c → g.chains[d.val] = some k → n ∉ k.members := by
  have everywhere (d : ChainId) : d ∈ allChains := by revert d; decide
  simp only [Page.admitsMember, Bool.and_eq_true, List.all_eq_true, Bool.or_eq_true, beq_iff_eq] at h
  obtain ⟨named, apart⟩ := h
  refine ⟨?_, fun d k ne there member => ?_⟩
  · cases found : g.fieldNumbered n with
    | none => simp [found] at named
    | some f =>
      obtain ⟨hf, number⟩ := Page.fieldNumbered_some found
      exact ⟨f, hf, number, by simpa [found, Field.takesScans] using named⟩
  · have := (apart d (everywhere d)).resolve_left ne
    simp [there, member] at this

/-- R117: a chain whose members are checked takes its place among the others. -/
theorem Page.ChainLaw.setChain {g : Page} {c : ChainId} {k : Chain} (law : g.ChainLaw) (once : k.members.Nodup)
    (few : k.members.length ≤ 16) (index : k.index < k.members.length) (least : 1 ≤ k.remaining)
    (most : k.remaining ≤ k.count) (bound : k.count ≤ 255) (listed : ∀ n ∈ k.members, g.admitsMember c n = true) :
    Page.ChainLaw { g with chains := g.chains.set c.val (some k) } := by
  have after {d : ChainId} {l : Chain} (e : (g.chains.set c.val (some k))[d.val] = some l) :
      d = c ∧ l = k ∨ d ≠ c ∧ g.chains[d.val] = some l := by
    rw [Vector.getElem_set] at e
    split at e
    · exact .inl ⟨(Fin.ext ‹_›).symm, (Option.some.inj e).symm⟩
    · exact .inr ⟨fun same => ‹¬_› (congrArg Fin.val same.symm), e⟩
  refine ⟨fun d l e => ?_, fun d l e n hn => ?_, fun d d' l x e e' n hn hn' => ?_, fun d e => ?_⟩
  · obtain ⟨rfl, rfl⟩ | ⟨-, there⟩ := after e
    · exact ⟨once, few, index, least, most, bound⟩
    · exact law.record d l there
  · obtain ⟨rfl, rfl⟩ | ⟨-, there⟩ := after e
    · exact (Page.admitsMember_sound (listed n hn)).1
    · exact law.member d l there n hn
  · obtain ⟨rfl, rfl⟩ | ⟨ne, there⟩ := after e <;> obtain ⟨rfl, rfl⟩ | ⟨ne', there'⟩ := after e'
    · rfl
    · exact absurd hn' ((Page.admitsMember_sound (listed n hn)).2 d' x ne' there')
    · exact absurd hn ((Page.admitsMember_sound (listed n hn')).2 d l ne there)
    · exact law.once d d' l x there there' n hn hn'
  · rw [Vector.getElem_set]
    split
    · rfl
    · exact law.current d e

/-- R118: a chain is removed, and the current chain with it. -/
theorem Page.ChainLaw.unchain {g : Page} (law : g.ChainLaw) (c : ChainId) : Page.ChainLaw
    { g with chains := g.chains.set c.val none, current := if g.current = some c then none else g.current } := by
  have after {d : ChainId} {l : Chain} (e : (g.chains.set c.val none)[d.val] = some l) : g.chains[d.val] = some l := by
    rw [Vector.getElem_set] at e
    split at e
    · cases e
    · exact e
  refine ⟨fun d l e => law.record d l (after e), fun d l e => law.member d l (after e),
    fun d d' l x e e' => law.once d d' l x (after e) (after e'), fun d e => ?_⟩
  simp only at e ⊢
  split at e
  · cases e
  · rename_i other
    rw [Vector.getElem_set, if_neg fun same => other (by rw [e, Fin.ext same])]
    exact law.current d e

theorem State.lawsKept_orderChain (operands : List Byte) : s.LawsKept (s.orderChain p operands).state := by
  unfold State.orderChain
  split
  · exact .refl s
  · rename_i c k described
    simp only
    split
    · rename_i checks
      simp only [Bool.and_eq_true, List.all_eq_true, decide_eq_true_eq] at checks
      obtain ⟨listed, once⟩ := checks
      obtain ⟨index, remaining, least, most, some_, few⟩ := chainOf_sound described
      exact .done (.updPage (.of_fields rfl rfl fun law =>
        law.setChain once few (by omega) (by omega) (by omega) most listed))
    · exact .refl s

theorem State.lawsKept_orderUnchain (operand : Byte) : s.LawsKept (s.orderUnchain p operand).state := by
  unfold State.orderUnchain
  split
  · exact .refl s
  · split
    · exact .refl s
    · exact .done (.updPage (.of_fields rfl rfl fun law => law.unchain _))

theorem State.lawsKept_orderSelect (operand : Byte) : s.LawsKept (s.orderSelect p operand).state := by
  unfold State.orderSelect
  split
  · exact .done (.updPage (.of_fields rfl rfl fun law => ⟨law.record, law.member, law.once, fun _ => nofun⟩))
  · split
    · exact .refl s
    · split
      · exact .refl s
      · rename_i c _ _ k there
        refine .done (.updPage (.of_fields rfl rfl fun law => ⟨law.record, law.member, law.once, fun d e => ?_⟩))
        obtain rfl := Option.some.inj e
        simp [there]

theorem State.tended_writeText (kind : Kind) (writePos : Nat) (codes : List Byte) :
    s.Tended (s.writeText kind p writePos codes).state := by
  unfold State.writeText
  simp only
  split
  · exact .of_pages rfl
  · exact .done (.trans (.updPage (Page.tended_cells _ _)) (.of_pages (State.updTxn_pages _ _)))

/-- R131, R137: row and column operands name a cell. -/
theorem positionOf_below {row column : Byte} {position : Nat} (h : positionOf row column = some position) :
    position < 1920 := by
  unfold positionOf at h
  split at h
  · have := Option.some.inj h
    omega
  · cases h

theorem State.lawsKept_pageOrder (kind : Kind) (writePos : Nat) (o : OrderCode) (operands : List Byte) :
    s.LawsKept (s.pageOrder kind p writePos o operands).state := by
  unfold State.pageOrder
  simp only
  split
  case h_1 =>
    split
    · exact .of_pages rfl
    · exact .refl s
  case h_2 => exact (s.tended_writeText p kind _ _).lawsKept
  case h_3 =>
    split
    · exact (s.tended_writeText p kind _ _).lawsKept
    · exact .refl s
  case h_4 =>
    split
    · exact (s.tended_writeText p kind _ _).lawsKept
    · exact .refl s
  case h_5 => exact s.lawsKept_orderDefine p _ _
  case h_6 => exact s.lawsKept_orderDrop p _
  case h_7 =>
    split
    · exact .done (.updPage (Page.tended_cursor _ fun _ => positionOf_below ‹_›).lawsKept)
    · exact .refl s
  case h_8 => exact .done (.updPage (.of_fields rfl rfl fun law => ⟨law.record, law.member, law.once, law.current⟩))
  case h_9 => exact (s.tended_orderMark p _ _).lawsKept
  case h_10 => exact (s.tended_orderUnmodify p _).lawsKept
  case h_11 => exact s.lawsKept_orderChain p _
  case h_12 => exact s.lawsKept_orderUnchain p _
  case h_13 => exact s.lawsKept_orderSelect p _
  case h_14 => exact .refl s

/-- R166: a replay keeps the laws, as each of its orders does. -/
theorem State.lawsKept_replay (orders : List (List Byte)) : s.LawsKept (State.replay p s orders).state := by
  induction orders generalizing s with
  | nil => exact .refl s
  | cons order rest ih =>
    cases order with
    | nil => exact ih s
    | cons code operands =>
      unfold State.replay
      split
      · rename_i o t _ _
        have one := s.lawsKept_pageOrder p .load t.writePos o operands
        split
        · rename_i done
          exact .trans (by rwa [done] at one) (ih _)
        · rename_i skipped
          exact (State.LawsKept.trans (by rwa [skipped] at one) (.of_pages (State.updTxn_pages _ _))).trans (ih _)
        · rename_i failed
          rwa [failed] at one
      · exact ih s

/-- R124: an order that is carried out or recorded keeps the laws. -/
theorem State.lawsKept_carryOut (t : Transaction) (o : OrderCode) (operands : List Byte) :
    s.LawsKept (s.carryOut t o operands).state := by
  unfold State.carryOut
  split
  · split
    · unfold State.recordOrder
      split
      · exact .refl s
      · simp only
        split
        · exact .refl s
        · exact .done (.of_pages (s.updSlot_pages _ _))
    · exact .refl s
  · split
    · unfold State.orderRecall
      split
      · exact .refl s
      · split
        · exact .refl s
        · exact s.lawsKept_replay _ _
        · exact .refl s
    · exact s.lawsKept_pageOrder _ _ _ _ _
  · exact .refl s

end orders

end Sys2Proof.Machine

namespace Sys2Proof.Machine

/-! ## The stream port -/

section stream

variable (s : State)

theorem State.tended_interp (i : Interpreter) : s.Tended { s with interp := i } := .of_pages rfl

/-- R95: the close of a transaction, with the release of the input it held back. -/
theorem State.lawsKept_closeTransaction (t : Transaction) (next : InterpState) :
    s.LawsKept (s.closeTransaction t next) := by
  have marked (u : State) : u.Tended (u.clearMark t) := by
    unfold State.clearMark
    split
    · exact .updPage (.of_same rfl rfl rfl rfl)
    · exact .refl u
  have closed : s.Tended (s.closed t next) := (s.tended_interp _).trans (marked _)
  rw [State.closeTransaction_closed]
  split
  · exact closed.lawsKept.trans (State.lawsKept_releaseInput _)
  · exact closed.lawsKept

theorem State.lawsKept_answer (r : Report) : s.LawsKept (s.answer r) := .of_pages (s.answer_pages r)

theorem State.lawsKept_abortEffects (t : Transaction) : s.LawsKept (s.abortEffects t) := by
  unfold State.abortEffects
  split
  · exact .updPage (Page.lawsKept_released _)
  · split
    · exact .of_pages (s.updSlot_pages _ _)
    · exact .refl s
  · exact .refl s

/-- R127: an abort. -/
theorem State.lawsKept_abort (t : Transaction) (status : Status) (detail : Nat) (next : InterpState) :
    s.LawsKept (s.abort t status detail next) :=
  ((s.lawsKept_abortEffects t).trans (State.lawsKept_answer _ _)).trans (State.lawsKept_closeTransaction _ _ _)

theorem State.tended_returnToHead (p : PageNum) {f : Page → Page} (h : ∀ g : Page, g.Tended (f g)) :
    s.Tended (s.returnToHead p f) :=
  .promoted (p := p) (f := fun g => f { g with state := .ready, timer := .absent }) rfl
    (.trans (h := { s.page p with state := .ready, timer := .absent }) (.of_same rfl rfl rfl rfl) (h _))

theorem State.lawsKept_endEffects (t : Transaction) : s.LawsKept (s.endEffects t) := by
  unfold State.endEffects
  simp only
  split
  · rename_i p _ _
    exact State.Tended.lawsKept (.promoted (p := p) (f := fun g => { g with state := .ready }) rfl
      (.of_same rfl rfl rfl rfl))
  · exact (s.tended_returnToHead _ .refl).lawsKept
  · exact .updPage (Page.lawsKept_released _)
  · exact .of_pages rfl
  · exact .of_kept fun p => s.restartEnd_page p ▸ Page.lawsKept_blank _
  · split
    · exact .of_pages (s.updSlot_pages _ _)
    · exact .refl s
  · exact .refl s

/-- R126: END. -/
theorem State.lawsKept_reachEnd (t : Transaction) : s.LawsKept (s.reachEnd t) :=
  ((s.lawsKept_endEffects t).trans (State.lawsKept_answer _ _)).trans (State.lawsKept_closeTransaction _ _ _)

/-! ### Headers -/

@[simp] theorem State.eraseSlot_pages (n : SlotNum) : (s.eraseSlot n).1.pages = s.pages := by
  unfold State.eraseSlot
  split
  · rfl
  · split
    · rfl
    · split <;> rfl

@[simp] theorem State.eraseSlots_pages (slots : List SlotNum) : (State.eraseSlots s slots).1.pages = s.pages := by
  induction slots generalizing s with
  | nil => rfl
  | cons n ns ih => exact (ih _).trans (s.eraseSlot_pages n)

@[simp] theorem State.acceptErase_pages (slots : List Byte) : (s.acceptErase slots).1.pages = s.pages := by
  refine .trans ?_ (s.eraseSlots_pages (slots.filterMap slotOfByte))
  unfold State.acceptErase State.gather
  simp only
  split <;> rfl

variable {s} in
theorem State.pauseUnit_pages {u : State} (h : s.pauseUnit = some u) : u.pages = s.pages := by
  unfold State.pauseUnit at h
  split at h <;> cases h <;> rfl

variable {s} in
theorem State.resumeUnit_pages {u : State} (h : s.resumeUnit = some u) : u.pages = s.pages := by
  unfold State.resumeUnit at h
  split at h
  · split at h <;> cases h <;> rfl
  all_goals cases h

theorem State.tended_refuse (t : Transaction) (status : Status) (detail : Nat) : s.Tended (s.refuse t status detail) :=
  .of_pages (s.answer_pages _)

/-- R123: a header that is judged tends the page it names, and no other. -/
theorem State.tended_judgeHeader (t : Transaction) : s.Tended (s.judgeHeader t) := by
  unfold State.judgeHeader
  simp only
  split
  · exact s.tended_refuse t _ _
  · rename_i k _
    cases k with
    | load | amend | post | reopen | close =>
      simp only
      split
      · exact s.tended_refuse t _ _
      · split
        · exact s.tended_refuse t _ _
        · exact .updPage (s := s.accept t) (.of_same rfl rfl rfl rfl)
    | restart | setup | query => exact .of_pages rfl
    | store =>
      simp only
      split
      · exact s.tended_refuse t _ _
      · exact .of_pages rfl
      · exact s.tended_refuse t _ _
    | erase =>
      simp only
      split
      · exact s.tended_refuse t _ _
      · split
        · exact s.tended_refuse t _ _
        · split
          · exact .of_pages (s.acceptErase_pages _)
          · exact .of_pages (s.acceptErase_pages _)
    | pause =>
      simp only
      split
      · exact s.tended_refuse t _ _
      · rename_i u found
        exact .of_pages ((u.accept_pages t).trans (State.pauseUnit_pages found))
    | resume =>
      simp only
      split
      · exact s.tended_refuse t _ _
      · rename_i u found
        exact .of_pages ((u.accept_pages t).trans (State.resumeUnit_pages found))

/-! ### Bytes -/

/-- R124, R125, R127: what an order came to. -/
theorem State.lawsKept_settleOrder (t : Transaction) (o : OrderOutcome) : o.state.LawsKept (State.settleOrder t o) := by
  cases o with
  | done u => exact .of_pages rfl
  | skipped u => exact .of_pages rfl
  | failed status u => exact u.lawsKept_abort t status t.index .skipping

theorem State.lawsKept_takeOrderCode (t : Transaction) (b : Byte) : s.LawsKept (s.takeOrderCode t b) := by
  unfold State.takeOrderCode
  split
  · exact s.lawsKept_reachEnd t
  · split
    · exact (s.lawsKept_abort t _ _ _).trans (.of_pages (State.openTransaction_pages _))
    · simp only
      split
      · split
        · exact .of_pages rfl
        · exact s.lawsKept_abort _ _ _ _
      · exact s.lawsKept_abort _ _ _ _

theorem State.lawsKept_takeOperand (t : Transaction) (b : Byte) : s.LawsKept (s.takeOperand t b) := by
  have recorded (r : Transaction) : s.LawsKept { s with interp.txn := some r } := .of_pages rfl
  unfold State.takeOperand
  simp only
  split
  · exact .refl s
  · split
    · exact recorded _
    · exact s.lawsKept_abort _ _ _ _
    · exact ((recorded _).trans (State.lawsKept_carryOut _ _ _ _)).trans (State.lawsKept_settleOrder _ _)

/-- R121 to R128: a byte that the interpreter takes. -/
theorem State.lawsKept_interpretByte (b : Byte) : s.LawsKept (s.interpretByte b) := by
  unfold State.interpretByte
  split
  case h_1 =>
    split
    · exact .of_pages s.openTransaction_pages
    · exact .refl s
  case h_2 =>
    split
    · exact .of_pages rfl
    · split
      · exact .of_pages s.openTransaction_pages
      · exact .refl s
  case h_3 t _ _ =>
    unfold State.takeHeaderByte
    simp only
    split
    · exact (s.tended_judgeHeader _).lawsKept
    · exact .of_pages rfl
  case h_4 t _ _ =>
    split
    · exact s.lawsKept_takeOrderCode t b
    · exact s.lawsKept_takeOperand t b
  case h_5 => exact .refl s
  case h_6 => exact .refl s

theorem State.lawsKept_takeStream (bytes : List Byte) : s.LawsKept (s.takeStream bytes) := by
  induction bytes generalizing s with
  | nil => exact .refl s
  | cons b bs ih =>
    rw [State.takeStream_cons]
    refine .trans ?_ (ih _)
    unfold State.takeStreamByte
    split
    · exact .refl s
    · exact s.lawsKept_interpretByte b

end stream

/-! ## The erase unit, the resets and the expiries -/

section others

variable (s : State)

@[simp] theorem State.handResult_pages (result : List (SlotNum × EraseOutcome)) :
    (s.handResult result).pages = s.pages := by
  unfold State.handResult; split <;> rfl

@[simp] theorem State.endRun_pages : s.endRun.pages = s.pages := State.handResult_pages _ _

@[simp] theorem State.nextSlot_pages : s.nextSlot.pages = s.pages := by
  unfold State.nextSlot
  split
  · rfl
  · exact s.endRun_pages

@[simp] theorem State.restUnit_pages : s.restUnit.pages = s.pages := by
  unfold State.restUnit
  split
  · rfl
  · exact s.endRun_pages

/-- R170, R172: the end of an attempt touches no page. -/
theorem State.endAttempt_pages (ending : Sys2Proof.Ending) : (s.endAttempt ending).pages = s.pages := by
  unfold State.endAttempt
  split
  · rfl
  · simp only
    split
    · exact State.nextSlot_pages _
    · split
      · rfl
      · exact State.nextSlot_pages _
    · rfl
    · exact State.restUnit_pages _
    · split
      · rfl
      · exact State.restUnit_pages _
    all_goals rfl

theorem State.endGathering_pages : s.endGathering.pages = s.pages := by
  unfold State.endGathering; split <;> rfl

theorem State.takeAnswerByte_pages : s.takeAnswerByte.pages = s.pages := by
  unfold State.takeAnswerByte; split <;> rfl

theorem State.tended_expireConfirm : s.Tended s.expireConfirm := by
  have dropped : s.Tended s.dropConfirm := .of_pages s.dropConfirm_pages
  unfold State.expireConfirm
  split
  · exact .refl s
  · simp only
    split
    · exact dropped.trans (State.tended_setNotice _ _ _)
    · exact dropped

theorem State.tended_expireReply (p : PageNum) : s.Tended (s.expireReply p) := by
  unfold State.expireReply
  split
  · exact s.tended_returnToHead p fun _ => .of_same rfl rfl rfl rfl
  · exact .refl s

theorem State.tended_handFreed : s.Tended s.handFreed := by
  unfold State.handFreed
  split
  · exact .of_pages rfl
  · exact .of_pages rfl
  · exact .updPage (s := s.queueReport _) (.of_same rfl rfl rfl rfl)
  · exact .refl s

theorem State.tended_handFreedTimes (n : Nat) : s.Tended (State.handFreedTimes n s) := by
  induction n generalizing s with
  | zero => exact .refl s
  | succ n ih => exact s.tended_handFreed.trans (ih _)

theorem State.tended_takeReportByte : s.Tended s.takeReportByte := by
  unfold State.takeReportByte
  split
  · exact .of_pages rfl
  · split
    · exact .of_pages rfl
    · rename_i r rest _
      simp only
      split
      · exact .of_pages rfl
      · refine .trans ?_ (State.tended_handFreed _)
        cases r with
        | entry e =>
          exact .updPage (s := { s with
            reports := { s.reports with queue := rest, taken := 0 }
            outputs.stream := (s.reportBytes (.entry e))[s.reports.taken]? }) (.of_same rfl rfl rfl rfl)
        | attention | completion | status | eraseDone | start => exact .of_pages rfl

theorem State.tended_ready (ready : List PageNum) : s.Tended { s with ready := ready } := .of_pages rfl

/-- One edit made on page after page. -/
theorem State.tended_foldl {f : Page → Page} (h : ∀ g : Page, g.Tended (f g)) (ps : List PageNum) :
    s.Tended (ps.foldl (fun s p => s.updPage p f) s) := by
  induction ps generalizing s with
  | nil => exact .refl s
  | cons p ps ih => exact (State.Tended.setPage (h (s.page p))).trans (ih _)

theorem Page.tended_tick (g : Page) : g.Tended g.tick := by
  unfold Page.tick
  split
  · split
    · exact .of_same rfl rfl rfl rfl
    · exact .refl g
  all_goals exact .refl g

theorem Page.tended_unsentReturn (g : Page) : g.Tended g.unsentReturn := by
  unfold Page.unsentReturn
  split
  · exact .of_same rfl rfl rfl rfl
  · exact .refl g

/-- With no command waiting a step is an expiry or one ms that passes (log entry 6). -/
theorem State.tended_idle : s.Tended s.idle := by
  have expired (u : State) (d : Due) : u.Tended (u.expire d) := by
    cases d with
    | reply p => exact u.tended_expireReply p
    | confirm => exact u.tended_expireConfirm
    | gathering => exact .of_pages u.endGathering_pages
  unfold State.idle
  split
  · exact .trans (s.tended_foldl Page.tended_tick allPages) (.of_pages rfl)
  · exact expired s _
  · exact .trans (t := { s with choices := s.choices + 1 }) (.of_pages rfl) (expired _ _)

/-- R157: a stream reset. -/
theorem State.lawsKept_streamReset : s.LawsKept s.streamEmptied.endCutShort := by
  have cut : s.LawsKept s.cutShort := by
    unfold State.cutShort
    simp only
    split
    · exact (s.lawsKept_abortEffects _).trans (.of_pages rfl)
    · exact .of_pages rfl
  have returned (u : State) : u.Tended u.returnSending := by
    unfold State.returnSending
    have unsent := u.tended_foldl Page.tended_unsentReturn (allPages.filter fun p => (u.page p).state = .sending)
    exact (unsent.trans (State.tended_ready _ _)).trans (State.tended_promote _)
  have freed : s.cutShort.emptyReports.LawsKept s.streamEmptied :=
    ((returned _).trans (State.tended_handFreedTimes _ 8)).lawsKept
  have emptied : s.LawsKept s.streamEmptied := cut.trans (.trans (t := s.cutShort.emptyReports) (.of_pages rfl) freed)
  refine emptied.trans ?_
  unfold State.endCutShort
  split
  · exact State.lawsKept_closeTransaction _ _ _
  · exact .of_pages rfl

/-! ## Every step -/

variable {s}

/-- Whatever a command does, it keeps the Field Table's laws. -/
theorem State.lawsKept_of_exec {c : Instr} {t : State} (h : exec c s = .next t) : s.LawsKept t := by
  by_cases stream : onStreamPort c = true
  · obtain ⟨bytes, e⟩ := exec_of_onStreamPort stream s
    cases e.symm.trans h
    exact s.lawsKept_takeStream bytes
  · cases key : keyCode c with
    | some b =>
      cases (exec_of_keyCode key s).symm.trans h
      exact s.lawsKept_takeInput [b]
    | none =>
      cases c with
      | resetLine => cases h; exact .of_kept fun p => s.lineReset_page p ▸ Page.lawsKept_blank _
      | streamReset => cases h; exact s.lawsKept_streamReset
      | reportByteTaken => cases h; exact s.tended_takeReportByte.lawsKept
      | scanFrame length characters => cases h; exact s.lawsKept_takeInput _
      | scanAnswerByteTaken => cases h; exact .of_pages s.takeAnswerByte_pages
      | rowRequest row => cases h; exact .of_pages rfl
      | cursorRequest => cases h; exact .of_pages rfl
      | replyTimerExpiry p => cases h; exact (s.tended_expireReply p).lawsKept
      | confirmWindowExpiry => cases h; exact s.tended_expireConfirm.lawsKept
      | gatheringWindowExpiry => cases h; exact .of_pages s.endGathering_pages
      | attemptEnd ending => cases h; exact .of_pages (s.endAttempt_pages ending)
      | attemptStopped ending => cases h; exact .of_pages (s.endAttempt_pages ending)
      | _ => simp [onStreamPort, keyCode] at stream key

/-- Whatever a step does, it keeps the Field Table's laws. -/
theorem State.lawsKept_of_step {t : State} (h : step s = .next t) : s.LawsKept t := by
  unfold step at h
  split at h
  · cases h
    exact s.tended_idle.lawsKept
  · rename_i rest _
    exact .trans (t := { s with pending := rest }) (.of_pages rfl) (State.lawsKept_of_exec h)

end others

/-- Settles O7: every step tends pages or keeps the law of the fields where it redefines them. -/
theorem stepKeepsFieldLaw : Obligations.StepKeepsFieldLaw := fun _ _ law h => (State.lawsKept_of_step h).field law

/-- Settles O8: every step tends pages or keeps the law of the chains where it redefines them. -/
theorem stepKeepsChainLaw : Obligations.StepKeepsChainLaw := fun _ _ law h => (State.lawsKept_of_step h).chain law

end Sys2Proof.Machine

/-! # The field orders: DEFINE, DROP, MARK and UNMODIFY

An order of fixed length is carried out in its page once its last operand has been read (R124). What is left of each order is
what it makes of the page. -/

namespace Sys2Proof.Machine

/-! ## An order in a page -/

section pageOrder

variable {s : State} {t : Transaction} {k : Kind} {p : PageNum}

theorem nextIndex_eq (t : Transaction) : nextIndex t.index = t.next := by
  unfold nextIndex Transaction.next
  split <;> omega

/-- R124: an order with n operand bytes is carried out in the page of its transaction. -/
theorem State.takeStream_pageOrder {o : OrderCode} {operands : List Byte} {n : Nat} (due : s.orderDue t k)
    (page : t.page = some p) (allowed : o.allowedIn k = true) (kind : k ≠ .store) (order : o ≠ .recall)
    (fixed : ∀ l, operandsRead o l = if n ≤ l.length then .complete else .more) (length : operands.length = n)
    (some_ : operands ≠ []) :
    s.takeStream (o.code :: operands) = State.settleOrder (t.reading o operands)
      ((s.withTxn (t.reading o operands)).pageOrder k p t.writePos o operands) := by
  have due' := due
  obtain ⟨-, -, hk, -, -⟩ := due'
  rw [State.takeStream_order s t k o operands due allowed ?_ ?_ some_]
  · congr 1
    have kind' : (t.reading o operands).kind = some k := hk
    have page' : (t.reading o operands).page = some p := page
    unfold State.carryOut
    rw [kind', page']
    cases k with
    | store => exact absurd rfl kind
    | _ => exact if_neg order
  · intro m _ below
    rw [fixed, if_neg (by simp; omega)]
  · rw [fixed, if_pos length.ge]

/-- R124: the record of an order that has been carried out. -/
theorem Transaction.reading_carried {o : OrderCode} {operands : List Byte} (due : s.orderDue t k) :
    ({ t.reading o operands with order := [] } : Transaction) = t.carried := by
  obtain ⟨-, -, -, order, -⟩ := due
  simp only [Transaction.reading, Transaction.carried, nextIndex_eq, order]

/-- R124: what is left of an order that has changed its page. -/
theorem State.settleOrder_done {o : OrderCode} {operands : List Byte} (due : s.orderDue t k) (f : Page → Page) :
    State.settleOrder (t.reading o operands) (.done ((s.withTxn (t.reading o operands)).updPage p f)) =
      (s.setPage p (f (s.page p))).withTxn t.carried := by
  rw [← Transaction.reading_carried due]
  rfl

/-- R125: what is left of an order that has been skipped. -/
theorem State.settleOrder_skipped {o : OrderCode} {operands : List Byte} (due : s.orderDue t k) :
    State.settleOrder (t.reading o operands) (.skipped (s.withTxn (t.reading o operands))) = s.withTxn t.skipped := by
  obtain ⟨-, -, -, order, -⟩ := due
  simp only [State.settleOrder, State.skipOrder, State.updTxn, State.withTxn, Option.map_some, Transaction.skip,
    Transaction.reading, Transaction.skipped, nextIndex_eq, order]

end pageOrder

/-! ## DEFINE -/

section define

variable {d : DefineOperands}

/-- R182: the operand bytes of a DEFINE are read as its operands. -/
theorem defineOf_defineBytes (d : DefineOperands) : defineOf (defineBytes d) = d := by
  have bound : d.bound.extractLsb' 24 8 ++ d.bound.extractLsb' 16 8 ++ d.bound.extractLsb' 8 8 ++
      d.bound.extractLsb' 0 8 = d.bound := by
    rw [BitVec.extractLsb'_append_extractLsb'_eq_extractLsb' (by rfl),
      BitVec.extractLsb'_append_extractLsb'_eq_extractLsb' (by rfl),
      BitVec.extractLsb'_append_extractLsb'_eq_extractLsb' (by rfl)]
    exact BitVec.extractLsb'_eq_self
  simp only [defineOf, defineBytes, List.getD_cons_zero, List.getD_cons_succ, bound]

/-- R27: the three codes of a source, a check kind and an exit option. -/
theorem byte_le_two {b : Byte} (h : b.toNat ≤ 2) : b = 0x00#8 ∨ b = 0x01#8 ∨ b = 0x02#8 := by bv_omega

theorem sourceOfByte_eq {b : Byte} (h : b.toNat ≤ 2) :
    sourceOfByte b = some (if b = 0x00#8 then .key else if b = 0x01#8 then .scan else .both) := by
  obtain rfl | rfl | rfl := byte_le_two h <;> rfl

theorem checkOfByte_eq {b : Byte} (h : b.toNat ≤ 2) :
    checkOfByte b = some (if b = 0x00#8 then .noCheck else if b = 0x01#8 then .m10 else .m11) := by
  obtain rfl | rfl | rfl := byte_le_two h <;> rfl

theorem actionOfByte_eq {b : Byte} (h : b.toNat ≤ 2) :
    actionOfByte b = some (if b = 0x00#8 then .nothing else if b = 0x01#8 then .attn else .send) := by
  obtain rfl | rfl | rfl := byte_le_two h <;> rfl

theorem classOfByte_eq {b : Byte} (h : b.toNat < 3) :
    classOfByte b = some (if b = 0x00#8 then .alpha else if b = 0x01#8 then .code else .digits) := by
  obtain rfl | rfl | rfl := byte_le_two (Nat.le_of_lt_succ h) <;> rfl

/-- R27 to R29: what DEFINE's operands say of an ENTRY field, their codes inside the lists. -/
structure Describes (d : DefineOperands) (e : EntryItems) : Prop where
  cls : classOfByte d.cls = some e.cls
  source : sourceOfByte d.source = some e.source
  check : checkOfByte d.check = some e.check
  exitOption : actionOfByte d.exitOption = some e.exitOption
  flags : e.mandatory = flagBit d.flags 0 ∧ e.mustFill = flagBit d.flags 1 ∧ e.autoSkip = flagBit d.flags 2 ∧
    e.doubleRead = flagBit d.flags 3
  amount : e.cls = .amount → e.signed = flagBit d.flags 4 ∧ e.zeroFill = flagBit d.flags 5 ∧ e.scale = d.scale.toNat ∧
    e.bound = d.bound.toNat
  others : e.cls ≠ .amount → e.signed = false ∧ e.zeroFill = false ∧ e.scale = 0 ∧ e.bound = 0
  link : continuationOf d = e.continuation
  fresh : e.touched = false ∧ e.checkError = none ∧ e.hostMark = none

theorem Describes.entryItemsOf_eq {e : EntryItems} (h : Describes d e) : entryItemsOf d = some e := by
  obtain ⟨mandatory, mustFill, autoSkip, doubleRead⟩ := h.flags
  obtain ⟨touched, checkError, hostMark⟩ := h.fresh
  have amount : (e.signed = (e.cls == .amount && flagBit d.flags 4)) ∧
      (e.zeroFill = (e.cls == .amount && flagBit d.flags 5)) ∧
      (e.scale = if e.cls == .amount then d.scale.toNat else 0) ∧
      (e.bound = if e.cls == .amount then d.bound.toNat else 0) := by
    by_cases is : e.cls = .amount
    · simpa [is] using h.amount is
    · have other : (e.cls == .amount) = false := by simpa using is
      simpa [other] using h.others is
  obtain ⟨signed, zeroFill, scale, bound⟩ := amount
  simp only [entryItemsOf, h.cls, h.source, h.check, h.exitOption, h.link, ← mandatory, ← mustFill, ← autoSkip,
    ← doubleRead, ← signed, ← zeroFill, ← scale, ← bound, ← touched, ← checkError, ← hostMark]

/-- R29: what the operands say of the class, in a field that they may describe. -/
theorem class_of {e : EntryItems} {length : Nat}
    (h : if d.cls = 0x03#8 then
        e.cls = .amount ∧ e.signed = d.flags.getLsbD 4 ∧ e.zeroFill = d.flags.getLsbD 5 ∧
        e.scale = d.scale.toNat ∧ e.bound = d.bound.toNat ∧ e.check = .noCheck ∧ 2 ≤ length ∧ length ≤ 20 ∧
        e.scale ≤ 4 ∧ e.scale < length ∧ e.bound ≤ 999999999
      else
        d.cls.toNat < 3 ∧ e.signed = false ∧ e.zeroFill = false ∧ e.scale = 0 ∧ e.bound = 0 ∧
        e.cls = (if d.cls = 0x00#8 then .alpha else if d.cls = 0x01#8 then .code else .digits) ∧
        (e.cls = .alpha → e.check = .noCheck) ∧ (e.cls = .code → e.check ≠ .m10))
    (link : e.cls ≠ .alpha → e.continuation = none) :
    classOfByte d.cls = some e.cls ∧
      (e.cls = .amount → e.signed = flagBit d.flags 4 ∧ e.zeroFill = flagBit d.flags 5 ∧ e.scale = d.scale.toNat ∧
        e.bound = d.bound.toNat) ∧
      (e.cls ≠ .amount → e.signed = false ∧ e.zeroFill = false ∧ e.scale = 0 ∧ e.bound = 0) ∧
      combinationHolds e length = true := by
  split at h
  · rename_i amount
    obtain ⟨cls, signed, zeroFill, scale, bound, check, least, most, scale', scale'', bound'⟩ := h
    refine ⟨by rw [amount, cls]; rfl, fun _ => ⟨signed, zeroFill, scale, bound⟩, fun other => absurd cls other, ?_⟩
    simp [combinationHolds, cls, check, link (by simp [cls]), least, most, scale', scale'', bound']
  · obtain ⟨below, signed, zeroFill, scale, bound, cls, alpha, code⟩ := h
    refine ⟨cls ▸ classOfByte_eq below, fun amount => ?_, fun _ => ⟨signed, zeroFill, scale, bound⟩, ?_⟩
    · rw [amount] at cls
      split at cls
      · cases cls
      · split at cls <;> cases cls
    · cases is : e.cls with
      | alpha => simp [combinationHolds, is, alpha is]
      | code =>
        have other := code is
        have none_ := link (by simp [is])
        cases kind : e.check with
        | m10 => exact absurd kind other
        | noCheck | m11 => simp [combinationHolds, is, none_, kind]
      | digits => simp [combinationHolds, is, link (by simp [is])]
      | amount =>
        rw [is] at cls
        split at cls
        · cases cls
        · split at cls <;> cases cls

/-- R33: what the operands say of the link. -/
theorem linkedTo_of {e : EntryItems} {Q : Nat → Prop}
    (h : if d.continuation = 0xFF#8 then e.continuation = none
      else e.continuation = some d.continuation.toNat ∧ e.cls = .alpha ∧ Q d.continuation.toNat) :
    continuationOf d = e.continuation ∧ (e.cls ≠ .alpha → e.continuation = none) ∧
      ∀ n, e.continuation = some n → Q n := by
  unfold continuationOf
  split at h
  · rename_i absent
    exact ⟨by rw [if_pos absent, h], fun _ => h, fun n leads => by simp [h] at leads⟩
  · rename_i there
    obtain ⟨leads, alpha, holds⟩ := h
    refine ⟨by rw [if_neg there, leads], fun other => absurd alpha other, fun n leads' => ?_⟩
    obtain rfl := Option.some.inj (leads.symm.trans leads')
    exact holds

/-- R26: the number of a field finds it. -/
theorem Page.FieldLaw.fieldNumbered {g : Page} (law : g.FieldLaw) {f : Field} {n : Nat} (hf : f ∈ g.fields)
    (number : f.number = n) : g.fieldNumbered n = some f := by
  cases found : g.fieldNumbered n with
  | none => exact absurd number (Page.fieldNumbered_none.1 found f hf)
  | some x =>
    obtain ⟨hx, number'⟩ := Page.fieldNumbered_some found
    rw [law.eq_of_number hf hx (number'.trans number.symm)]

/-- R26: the record of a field that operands within their bounds describe. -/
theorem fieldOf_eq {f : Field} (number : f.number = d.number.toNat) (named : f.number ≤ 95)
    (length : f.length = d.length.toNat) (room : 1 ≤ f.length) (most : f.length ≤ 240)
    (intensity : intensityOfByte d.presentation = some f.intensity) (blink : f.blink = flagBit d.presentation 2)
    (modified : f.modified = flagBit d.flags 6)
    (entry : f.entry = none ∧ d.kind = 0x00#8 ∨ d.kind = 0x01#8 ∧ ∃ e, f.entry = some e ∧ entryItemsOf d = some e ∧
      combinationHolds e f.length = true) : fieldOf d f.start = some f := by
  have sizes : ¬(95 < d.number.toNat ∨ d.length.toNat = 0 ∨ 240 < d.length.toNat) := by omega
  unfold fieldOf
  rw [if_neg sizes, intensity]
  rcases entry with ⟨none_, kind⟩ | ⟨kind, e, some_, items, holds⟩
  · simp only [kind, BitVec.toNat_ofNat, ← number, ← length, ← blink, ← modified, ← none_]
  · simp only [kind, BitVec.toNat_ofNat, items, ← length, holds, if_true, ← number, ← blink, ← modified]
    rw [← some_]

/-- R30 to R33: DEFINE puts an admitted field into the page's list. -/
theorem State.orderDefine_done {s : State} {p : PageNum} {f : Field} (described : fieldOf d f.start = some f)
    (admitted : (s.page p).admitsField f = true) (free : s.recordsInUse < 256) :
    s.orderDefine p f.start d = .done (s.updPage p fun g => { g with fields := insertField f g.fields }) := by
  have free' : s.freeRecords ≠ 0 := fun e => by
    have := State.freeRecords_eq_zero.1 e
    omega
  simp only [State.orderDefine, described, admitted, Bool.not_true, Bool.false_eq_true, if_false, free']

/-- R32: fields that lie in positional order begin in positional order. -/
theorem Page.FieldLaw.starts {g : Page} (law : g.FieldLaw) : g.fields.Pairwise fun x y => x.start < y.start :=
  law.order.imp_of_mem fun hx _ before => by
    have := (law.extent _ hx).1
    omega

end define

/-- Settles O28: the operands describe the field, the page admits it, and DEFINE puts it in its place. -/
theorem defineCreatesTheField : Obligations.DefineCreatesTheField := by
  intro s t k p d f due page kind law free number named start length room most inside intensity blink modified apart entry
  have allowed : OrderCode.define.allowedIn k = true ∧ k ≠ .store := by
    rcases kind with rfl | rfl | rfl <;> decide
  have intensity' : intensityOfByte d.presentation = some f.intensity := by
    unfold intensityOfByte
    rcases intensity with ⟨e, m⟩ | ⟨e, m⟩ | ⟨e, m⟩ <;> rw [e, m] <;> rfl
  have described : fieldOf d f.start = some f ∧ (s.page p).linkHolds f = true := by
    rcases entry with ⟨none_, zero⟩ | ⟨one, e, some_, source, hsource, exit_, hexit, check, hcheck, mandatory, mustFill,
      autoSkip, doubleRead, touched, checkError, hostMark, cls, link⟩
    · exact ⟨fieldOf_eq number named length room most intensity' blink modified (.inl ⟨none_, zero⟩),
        by simp [Page.linkHolds, Field.continuation, none_]⟩
    · have link' : f.continuation = e.continuation := by simp [Field.continuation, some_]
      have linked := linkedTo_of (Q := fun n => (∃ h ∈ (s.page p).fields, h.number = n ∧ h.isAlpha = true ∧
        f.start + f.length ≤ h.start) ∧ ∀ h ∈ (s.page p).fields, h.continuation ≠ some n) link
      obtain ⟨cls', amount, others, holds⟩ := class_of cls linked.2.1
      have describes : Describes d e := ⟨cls', source ▸ sourceOfByte_eq hsource, check ▸ checkOfByte_eq hcheck,
        exit_ ▸ actionOfByte_eq hexit, ⟨mandatory, mustFill, autoSkip, doubleRead⟩, amount, others, linked.1,
        ⟨touched, checkError, hostMark⟩⟩
      refine ⟨fieldOf_eq number named length room most intensity' blink modified
        (.inr ⟨one, e, some_, describes.entryItemsOf_eq, holds⟩), Page.linkHolds_iff.2 fun n leads => ?_⟩
      obtain ⟨⟨x, hx, number', alpha, behind⟩, once⟩ := linked.2.2 n (link' ▸ leads)
      refine ⟨⟨x, law.fieldNumbered hx number', alpha, ?_⟩, once⟩
      unfold Field.last
      omega
  have admitted : (s.page p).admitsField f = true := by
    refine Page.admitsField_iff.2 ⟨by unfold Field.last; omega, fun x hx => (apart x hx).1, fun x hx => ?_, described.2⟩
    have := (apart x hx).2
    have := law.extent x hx
    unfold Field.last
    omega
  obtain ⟨-, -, -, -, alpha⟩ := fieldOf_sound described.1
  refine ⟨insertField f (s.page p).fields, ?_, perm_insertField f _, (law.define named room most alpha admitted).starts⟩
  refine congrArg Host.Outcome.next ((State.takeStream_pageOrder (o := .define) (operands := defineBytes d) (n := 15)
    due page allowed.1 allowed.2 nofun (fun _ => rfl) rfl (List.cons_ne_nil _ _)).trans ?_)
  rw [State.pageOrder, defineOf_defineBytes, ← start,
    State.orderDefine_done (s := s.withTxn (t.reading .define (defineBytes d))) described.1 admitted free,
    State.settleOrder_done due]

end Sys2Proof.Machine

namespace Sys2Proof.Machine

/-! ## DROP -/

section drop

variable {s : State} {t : Transaction} {k : Kind} {p : PageNum} {g : Page} {n : Nat}

/-- R35 step 3, R37: the Scan Unit after fields have been dropped. -/
theorem State.dropConfirmAt_eq (s : State) (p : PageNum) (dropped : Nat → Bool) :
    s.dropConfirmAt p dropped = { s with scan := s.scanWithout p dropped } := by
  unfold State.dropConfirmAt State.scanWithout
  cases s.scan.confirm with
  | none => rfl
  | some r =>
    simp only
    split <;> rfl

/-- R35, R37: what is left of a DROP that has dropped fields. -/
theorem State.settleOrder_dropped {o : OrderCode} {operands : List Byte} (due : s.orderDue t k) (f : Page → Page)
    (dropped : Nat → Bool) :
    State.settleOrder (t.reading o operands)
        (.done (((s.withTxn (t.reading o operands)).updPage p f).dropConfirmAt p dropped)) =
      { (s.setPage p (f (s.page p))).withTxn t.carried with scan := s.scanWithout p dropped } := by
  rw [← Transaction.reading_carried due, State.dropConfirmAt_eq]
  rfl

/-- R36: the place of a member in its chain is where a member search finds it. -/
theorem Page.ChainLaw.memberOf (law : g.ChainLaw) {c : ChainId} {ch : Chain} {i : Nat} (there : g.chains[c.val] = some ch)
    (at_ : ch.members[i]? = some n) : g.memberOf n = some (c, i) := by
  cases found : g.memberOf n with
  | none => exact absurd (List.mem_of_getElem? at_) (Page.memberOf_none.1 found c ch there)
  | some place =>
    obtain ⟨d, j⟩ := place
    obtain ⟨x, there', at', -⟩ := g.chain_of_memberOf found
    obtain rfl := law.once c d ch x there there' n (List.mem_of_getElem? at_) (List.mem_of_getElem? at')
    obtain rfl := Option.some.inj (there.symm.trans there')
    obtain ⟨below, e⟩ := List.getElem?_eq_some_iff.1 at_
    obtain ⟨below', e'⟩ := List.getElem?_eq_some_iff.1 at'
    rw [((law.record c ch there).1.getElem_inj_iff).1 (e.trans e'.symm)]

/-- R36: a chain without one of its members: the index stays at the same next member, or goes to the first. -/
theorem Chain.without_eq {ch : Chain} {i : Nat} (index : ch.index < ch.members.length) (member : i < ch.members.length) :
    ch.without i = if ch.members.length = 1 then none else some { ch with
      members := ch.members.eraseIdx i
      index := if (if i < ch.index then ch.index - 1 else ch.index) = ch.members.length - 1 then 0
        else if i < ch.index then ch.index - 1 else ch.index } := by
  have length := List.length_eraseIdx_of_lt member
  have last : (ch.members.eraseIdx i).length ≤ (if i < ch.index then ch.index - 1 else ch.index) ↔
      (if i < ch.index then ch.index - 1 else ch.index) = ch.members.length - 1 := by
    split <;> omega
  have empty : (ch.members.eraseIdx i).isEmpty = true ↔ ch.members.length = 1 := by
    rw [List.isEmpty_iff, ← List.length_eq_zero_iff]
    omega
  simp only [Chain.without, empty, last]

/-- R35: the fields that a DROP leaves, each without a link to the dropped one. -/
theorem Page.dropField_fields_eq (g : Page) (n : Nat) : (g.dropField n).fields =
    (g.fields.filter fun f => f.number ≠ n).map fun f =>
      if f.continuation = some n then { f with entry := f.entry.map fun e => { e with continuation := none } } else f := by
  rw [Page.dropField_fields, List.filter_map]
  congr 1
  · funext f
    exact f.unlinked_eq n
  · congr 1
    funext f
    by_cases h : f.number = n <;> simp [h]

/-- R35, R36: a field that is a member of no chain is dropped. -/
theorem Page.dropField_of_noChain (h : ∀ (c : ChainId) (ch : Chain), g.chains[c.val] = some ch → n ∉ ch.members) :
    g.dropField n = { g with fields := (g.dropField n).fields } := by
  have none_ : (g.unlink n).memberOf n = none := Page.memberOf_none.2 h
  simp only [Page.dropField, Page.leaveChain, none_]
  rfl

/-- R35, R36: a member of a chain is dropped, and leaves it. -/
theorem Page.dropField_of_member (law : g.ChainLaw) {c : ChainId} {ch : Chain} {i : Nat}
    (there : g.chains[c.val] = some ch) (at_ : ch.members[i]? = some n) :
    g.dropField n = { g with
      fields := (g.dropField n).fields
      chains := g.chains.set c.val (ch.without i)
      current := if ch.without i = none ∧ g.current = some c then none else g.current } := by
  have found : (g.unlink n).memberOf n = some (c, i) := law.memberOf there at_
  have there' : (g.unlink n).chains[c.val] = some ch := there
  simp only [Page.dropField, Page.leaveChain, found, there', Option.bind_some, Option.isNone_iff_eq_none]
  rfl

end drop

/-- Settles O29: DROP carried out, and what it makes of the fields, the chains and the confirm-pending record. -/
theorem dropReleasesFields : Obligations.DropReleasesFields := by
  intro s t k p due page kind law chains
  have allowed : OrderCode.drop.allowedIn k = true ∧ k ≠ .store := by
    rcases kind with rfl | rfl | rfl <;> decide
  have taken (n : Byte) : exec (.drop n) s = .next (State.settleOrder (t.reading .drop [n])
      ((s.withTxn (t.reading .drop [n])).orderDrop p n)) :=
    congrArg Host.Outcome.next (State.takeStream_pageOrder (o := .drop) (operands := [n]) (n := 1) due page allowed.1
      allowed.2 nofun (fun _ => rfl) rfl (List.cons_ne_nil _ _))
  have dropped {n : Byte} (named : n ≠ 0xFF#8) (there : ∃ f ∈ (s.page p).fields, f.number = n.toNat) :
      exec (.drop n) s = .next { (s.setPage p ((s.page p).dropField n.toNat)).withTxn t.carried with
        scan := s.scanWithout p fun m => m == n.toNat } := by
    obtain ⟨f, hf, number⟩ := there
    have found : ((s.withTxn (t.reading .drop [n])).page p).fieldNumbered (fieldOfByte n) = some f :=
      law.fieldNumbered hf number
    rw [taken, State.orderDrop, if_neg named]
    simp only [found]
    rw [State.settleOrder_dropped due]
    rfl
  refine ⟨?_, fun n named => ⟨fun absent => ?_, fun there => ⟨fun free => ?_, fun c ch i chain member => ?_⟩⟩⟩
  · rw [taken, State.orderDrop, if_pos rfl, State.settleOrder_dropped due]
    rfl
  · have none_ : ((s.withTxn (t.reading .drop [n])).page p).fieldNumbered (fieldOfByte n) = none :=
      Page.fieldNumbered_none.2 absent
    rw [taken, State.orderDrop, if_neg named]
    simp only [none_]
    rw [State.settleOrder_skipped due]
  · rw [dropped named there, Page.dropField_of_noChain free, Page.dropField_fields_eq]
  · have index := (chains.record c ch chain).2.2.1
    rw [dropped named there, Page.dropField_of_member chains chain member, Page.dropField_fields_eq,
      Chain.without_eq index (List.getElem?_eq_some_iff.1 member).1]

/-! ## MARK and UNMODIFY -/

/-- Settles O30: MARK and UNMODIFY carried out on the fields that they find. -/
theorem markAndUnmodify : Obligations.MarkAndUnmodify := by
  intro s t k p n due page kind law
  have allowed : OrderCode.mark.allowedIn k = true ∧ k ≠ .store := by
    rcases kind with rfl | rfl | rfl <;> decide
  refine ⟨fun code within => ?_, fun other => ?_⟩
  · have taken : exec (.mark n code) s = .next (State.settleOrder (t.reading .mark [n, code])
        ((s.withTxn (t.reading .mark [n, code])).orderMark p n code)) :=
      congrArg Host.Outcome.next (State.takeStream_pageOrder (o := .mark) (operands := [n, code]) (n := 2) due page
        allowed.1 allowed.2 nofun (fun _ => rfl) rfl (List.cons_ne_nil _ _))
    rw [taken, State.orderMark, if_neg (Nat.not_lt.2 within)]
    refine ⟨fun ⟨f, hf, number, entry⟩ => ?_, fun absent => ?_⟩
    · have found : ((s.withTxn (t.reading .mark [n, code])).page p).fieldNumbered (fieldOfByte n) = some f :=
        law.fieldNumbered hf number
      have isEntry : f.isEntry = true := Option.isSome_iff_ne_none.2 entry
      have zero : code.toNat = 0 ↔ code = 0x00#8 := by bv_omega
      simp only [found, isEntry, if_true]
      rw [State.settleOrder_done due, number]
      simp only [Page.updEntry, Page.updField, Field.mapEntry, EntryItems.marked, zero]
    · cases found : ((s.withTxn (t.reading .mark [n, code])).page p).fieldNumbered (fieldOfByte n) with
      | none => exact congrArg Host.Outcome.next (State.settleOrder_skipped due)
      | some f =>
        obtain ⟨hf, number⟩ := Page.fieldNumbered_some found
        have isEntry : f.isEntry = false := by simp [Field.isEntry, absent f hf number]
        simp only [isEntry, Bool.false_eq_true, if_false]
        rw [State.settleOrder_skipped due]
  · have allowed' : OrderCode.unmodify.allowedIn k = true := by
      rcases kind with rfl | rfl | rfl
      · decide
      · decide
      · exact absurd rfl other
    have taken (n : Byte) : exec (.unmodify n) s = .next (State.settleOrder (t.reading .unmodify [n])
        ((s.withTxn (t.reading .unmodify [n])).orderUnmodify p n)) :=
      congrArg Host.Outcome.next (State.takeStream_pageOrder (o := .unmodify) (operands := [n]) (n := 1) due page
        allowed' allowed.2 nofun (fun _ => rfl) rfl (List.cons_ne_nil _ _))
    refine ⟨?_, fun named ⟨f, hf, number⟩ => ?_, fun named absent => ?_⟩
    · rw [taken, State.orderUnmodify, if_pos rfl, State.settleOrder_done due]
      rfl
    · have found : ((s.withTxn (t.reading .unmodify [n])).page p).fieldNumbered (fieldOfByte n) = some f :=
        law.fieldNumbered hf number
      rw [taken, State.orderUnmodify, if_neg named]
      simp only [found]
      rw [State.settleOrder_done due, number]
      rfl
    · have none_ : ((s.withTxn (t.reading .unmodify [n])).page p).fieldNumbered (fieldOfByte n) = none :=
        Page.fieldNumbered_none.2 absent
      rw [taken, State.orderUnmodify, if_neg named]
      simp only [none_]
      rw [State.settleOrder_skipped due]

end Sys2Proof.Machine

/-! # Edits of a continuation group

A group's cells are one rising sequence (R34). The edit keys write the sequence from the cursor on; what that makes of each
cell and of each field's marks is said here once (R59 to R63). -/

namespace Sys2Proof.Machine

/-! ## Cells written at listed positions -/

section writes

variable {m : Cells} {positions : List Nat} {codes : List Byte} {a : Nat}

theorem Cells.writeAll_cons (m : Cells) (w : Nat × Byte) (ws : List (Nat × Byte)) :
    m.writeAll (w :: ws) = (m.write w.1 w.2).writeAll ws := rfl

/-- A position that is not written keeps its code. -/
theorem Cells.read_writeAll_outside {ws : List (Nat × Byte)} (h : m.wf) (out : a ∉ ws.map (·.1)) :
    (m.writeAll ws).read a = m.read a := by
  induction ws generalizing m with
  | nil => rfl
  | cons w ws ih =>
    rw [List.map_cons, List.mem_cons, not_or] at out
    rw [Cells.writeAll_cons, ih (Cells.wf_write _ _ h) out.2, Cells.read_write_ne _ h out.1]

/-- Distinct positions take the codes written there. -/
theorem Cells.read_writeAll_zip (h : m.wf) (once : positions.Nodup) (below : ∀ b ∈ positions, b < 1920) {i : Nat} {v : Byte}
    (at_ : positions[i]? = some a) (code : codes[i]? = some v) : (m.writeAll (positions.zip codes)).read a = v := by
  induction positions generalizing m codes i with
  | nil => cases at_
  | cons b bs ih =>
    obtain ⟨fresh, once⟩ := List.nodup_cons.1 once
    cases codes with
    | nil => cases code
    | cons c cs =>
      rw [List.zip_cons_cons, Cells.writeAll_cons]
      cases i with
      | zero =>
        obtain rfl := Option.some.inj at_
        obtain rfl := Option.some.inj code
        rw [Cells.read_writeAll_outside (Cells.wf_write _ _ h), Cells.read_write _ _ h (below b (by simp)), if_pos rfl]
        intro there
        obtain ⟨w, hw, rfl⟩ := List.mem_map.1 there
        exact fresh (List.of_mem_zip hw).1
      | succ i => exact ih (Cells.wf_write _ _ h) once (fun x hx => below x (List.mem_cons_of_mem _ hx)) at_ code

end writes

/-! ## The group -/

section group

variable {g : Page} {fs : List Field} {f h : Field} {i k n : Nat}

/-- R33: a link is found from its target. -/
theorem Page.FieldLaw.linkSource (law : g.FieldLaw) (hf : f ∈ g.fields) (link : f.continuation = some n) :
    g.linkSource n = some f := by
  cases found : g.linkSource n with
  | none => exact absurd link (Page.linkSource_none.1 found f hf)
  | some x =>
    have link' : x.continuation = some n := by simpa using List.find?_some found
    rw [law.linkOnce x (List.mem_of_find?_eq_some found) f hf n link' link]

/-- R32: two fields of a page lie apart. -/
theorem Page.FieldLaw.apart_of_ne (law : g.FieldLaw) (hf : f ∈ g.fields) (hh : h ∈ g.fields) (ne : f ≠ h) :
    f.start + f.length ≤ h.start ∨ h.start + h.length ≤ f.start := by
  obtain ⟨i, hi, rfl⟩ := List.getElem_of_mem hf
  obtain ⟨j, hj, rfl⟩ := List.getElem_of_mem hh
  rcases Nat.lt_trichotomy i j with before | rfl | behind
  · exact .inl (List.pairwise_iff_getElem.1 law.order i j hi hj before)
  · exact absurd rfl ne
  · exact .inr (List.pairwise_iff_getElem.1 law.order j i hj hi behind)

/-- R32: a cell is found in the field that holds it. -/
theorem Page.FieldLaw.fieldAt (law : g.FieldLaw) (hf : f ∈ g.fields) {a : Nat} (lower : f.start ≤ a)
    (upper : a < f.start + f.length) : g.fieldAt a = some f := by
  cases found : g.fieldAt a with
  | none =>
    have := List.find?_eq_none.1 found f hf
    simp only [Field.holds, Bool.and_eq_true, decide_eq_true_eq] at this
    omega
  | some x =>
    obtain ⟨hx, lower', upper', -⟩ := law.inside.below_of_fieldAt found
    unfold Field.last at upper'
    have := (law.extent x hx).1
    by_contra ne
    have := law.apart_of_ne hf hx fun e => ne (e ▸ rfl)
    omega

theorem Page.FieldLaw.entryAt (law : g.FieldLaw) (hf : f ∈ g.fields) (entry : f.entry.isSome = true) {a : Nat}
    (lower : f.start ≤ a) (upper : a < f.start + f.length) : g.entryAt a = some f := by
  rw [Page.entryAt, law.fieldAt hf lower upper, Option.filter_some, Field.isEntry, if_pos entry]

/-- The field that is found at a cell holds it. -/
theorem Page.holds_of_entryAt {a : Nat} (at_ : g.entryAt a = some f) :
    f ∈ g.fields ∧ f.entry.isSome = true ∧ f.start ≤ a ∧ a < f.start + f.length := by
  obtain ⟨found, entry⟩ := Option.filter_eq_some_iff.1 at_
  have holds := List.find?_some found
  simp only [Field.holds, Bool.and_eq_true, decide_eq_true_eq] at holds
  exact ⟨List.mem_of_find?_eq_some found, entry, holds⟩

theorem Page.IsGroup.mem (grp : g.IsGroup fs) (at_ : fs[i]? = some f) : f ∈ g.fields :=
  (grp.fields f (List.mem_of_getElem? at_)).1

section isGroup

variable (law : g.FieldLaw) (grp : g.IsGroup fs)

include law grp

/-- R33, R34: each field of a group lies behind those before it. -/
theorem Page.IsGroup.behind {d : Nat} (at_ : fs[i]? = some f) (at_' : fs[i + d + 1]? = some h) :
    f.start + f.length ≤ h.start := by
  have next {i : Nat} {f h : Field} (at_ : fs[i]? = some f) (at_' : fs[i + 1]? = some h) :
      f.start + f.length ≤ h.start := by
    obtain ⟨-, x, hx, number, -, behind⟩ := law.links f (grp.mem at_) h.number (grp.linked i f h at_ at_')
    rw [← law.eq_of_number hx (grp.mem at_') number.symm] at behind
    exact behind
  induction d generalizing h with
  | zero => exact next at_ at_'
  | succ d ih =>
    have below : i + d + 1 < fs.length := by
      have := (List.getElem?_eq_some_iff.1 at_').1
      omega
    have middle := List.getElem?_eq_getElem below
    have := ih middle
    have := next middle at_'
    omega

theorem Page.IsGroup.pairwise : fs.Pairwise fun f h => f.start + f.length ≤ h.start := by
  rw [List.pairwise_iff_getElem]
  intro i j hi hj before
  obtain ⟨d, rfl⟩ := Nat.exists_eq_add_of_lt before
  exact grp.behind law (List.getElem?_eq_getElem hi) (List.getElem?_eq_getElem hj)

/-- R34: a group has no more fields than the page. -/
theorem Page.IsGroup.length_le : fs.length ≤ g.fields.length := by
  have once : fs.Nodup := (grp.pairwise law).imp_of_mem fun hf _ before e => by
    have := (law.extent _ (grp.fields _ hf).1).1
    subst e
    omega
  exact (List.subperm_of_subset once fun f hf => (grp.fields f hf).1).length_le

/-- R34: the links back from a field of a group lead to its head. -/
theorem Page.IsGroup.headFrom {fuel : Nat} (fuel_ : i ≤ fuel) (at_ : fs[i]? = some f) (head : fs.head? = some h) :
    g.headFrom fuel f = h := by
  induction i generalizing f fuel with
  | zero =>
    obtain rfl : f = h := Option.some.inj (at_.symm.trans (by rw [← head, List.head?_eq_getElem?]))
    have none_ : g.linkSource f.number = none := Page.linkSource_none.2 (grp.head f head)
    cases fuel with
    | zero => rfl
    | succ fuel => simp only [Page.headFrom, none_]
  | succ i ih =>
    obtain ⟨fuel, rfl⟩ := Nat.exists_eq_add_of_le' (Nat.le_trans (Nat.le_add_left 1 i) fuel_)
    have below : i < fs.length := by
      have := (List.getElem?_eq_some_iff.1 at_).1
      omega
    have before := List.getElem?_eq_getElem below
    have source := law.linkSource (grp.mem before) (grp.linked i _ f before at_)
    simp only [Page.headFrom, source]
    exact ih (by omega) before

/-- R34: the links from a field of a group run through the rest of it. -/
theorem Page.IsGroup.runFrom {fuel : Nat} (fuel_ : fs.length ≤ i + fuel + 1) (at_ : fs[i]? = some f) :
    g.runFrom fuel f = fs.drop i := by
  obtain ⟨below, is⟩ := List.getElem?_eq_some_iff.1 at_
  rw [List.drop_eq_getElem_cons below, is]
  induction fuel generalizing i f with
  | zero => rw [List.drop_of_length_le (by omega), Page.runFrom]
  | succ fuel ih =>
    by_cases more : i + 1 < fs.length
    · have next := List.getElem?_eq_getElem more
      have target := law.fieldNumbered (grp.mem next) rfl
      simp only [Page.runFrom, grp.linked i f _ at_ next, Option.bind_some, target]
      rw [ih (by omega) next more rfl, ← List.drop_eq_getElem_cons more]
    · have last : f.continuation = none := grp.last f (by
        rw [List.getLast?_eq_getElem?, show fs.length - 1 = i by omega, at_])
      simp only [Page.runFrom, last, Option.bind_none]
      rw [List.drop_of_length_le (by omega)]

/-- R34: a group is what the links from one of its fields give. -/
theorem Page.IsGroup.group_eq (hf : f ∈ fs) : g.group f = fs := by
  obtain ⟨i, at_⟩ := List.mem_iff_getElem?.1 hf
  have below := (List.getElem?_eq_some_iff.1 at_).1
  have few := grp.length_le law
  have first : fs[0]? = some fs[0] := List.getElem?_eq_getElem (by omega)
  rw [Page.group, grp.headFrom law (by omega) at_ (by rw [List.head?_eq_getElem?, first]),
    grp.runFrom law (by omega) first, List.drop_zero]

/-! ### The group's cells -/

/-- R34: the cells of a group are a rising sequence. -/
theorem Page.IsGroup.rising : (groupCells fs).Pairwise (· < ·) := by
  refine List.pairwise_flatMap.2 ⟨fun f _ => List.pairwise_lt_range', (grp.pairwise law).imp fun before a ha b hb => ?_⟩
  rw [List.mem_range'_1] at ha hb
  omega

theorem Page.IsGroup.nodup_cells : (groupCells fs).Nodup := (grp.rising law).imp Nat.ne_of_lt

theorem Page.IsGroup.cells_below : ∀ a ∈ groupCells fs, a < 1920 := by
  intro a ha
  obtain ⟨f, hf, inside⟩ := List.mem_flatMap.1 ha
  have := (law.extent f (grp.fields f hf).1).2.2
  rw [List.mem_range'_1] at inside
  omega

end isGroup

/-- A rising sequence from one of its places on. -/
theorem dropWhile_eq_drop {seq : List Nat} (once : seq.Nodup) {a : Nat} (at_ : seq[k]? = some a) :
    seq.dropWhile (· ≠ a) = seq.drop k := by
  induction seq generalizing k with
  | nil => cases at_
  | cons b bs ih =>
    obtain ⟨fresh, once⟩ := List.nodup_cons.1 once
    cases k with
    | zero =>
      obtain rfl := Option.some.inj at_
      simp
    | succ k =>
      have ne : b ≠ a := fun e => fresh (e ▸ List.mem_of_getElem? at_)
      rw [List.dropWhile_cons_of_pos (by simpa using ne)]
      exact ih once at_

/-- A place of a sequence without repetition is not among the places behind. -/
theorem not_mem_drop {seq : List Nat} (once : seq.Nodup) {a : Nat} (at_ : seq[i]? = some a) (before : i < k) :
    a ∉ seq.drop k := by
  intro there
  obtain ⟨j, hj⟩ := List.mem_iff_getElem?.1 there
  rw [List.getElem?_drop] at hj
  have := (List.getElem?_eq_some_iff.1 at_).1
  have := (List.nodup_iff_getElem?_ne_getElem?.1 once) i (k + j) (by omega) (List.getElem?_eq_some_iff.1 hj).1
  exact this (at_.trans hj.symm)

end group

/-! ## What the writes make of the cells -/

/-- R60: the cells with the sequence of a group closed up from a place on, nulls behind. -/
def Page.ClosedUp (g : Page) (fs : List Field) (first : Nat) (cells : Cells) : Prop :=
  cells.wf ∧ (∀ a, a ∉ groupCells fs → cells.read a = g.cells.read a) ∧
    ∀ i a, (groupCells fs)[i]? = some a → cells.read a =
      if i < first then g.cells.read a
      else if i + 1 < (groupCells fs).length then g.cells.read ((groupCells fs).getD (i + 1) 0)
      else 0x00#8

/-- R62, R63: the cells with the sequence of a group null from a place on. -/
def Page.Nulled (g : Page) (fs : List Field) (first : Nat) (cells : Cells) : Prop :=
  cells.wf ∧ (∀ a, a ∉ groupCells fs → cells.read a = g.cells.read a) ∧
    ∀ i a, (groupCells fs)[i]? = some a → cells.read a = if i < first then g.cells.read a else 0x00#8

section sequence

variable {g : Page} {fs : List Field} {k a : Nat}

/-- Codes written along the sequence of a group from a place on: the others stay. -/
theorem Page.IsGroup.read_writeAll (law : g.FieldLaw) (grp : g.IsGroup fs) (wf : g.cells.wf) {codes : List Byte}
    {out : Nat → Byte} (code : ∀ i, k ≤ i → i < (groupCells fs).length → codes[i - k]? = some (out i)) :
    (∀ a, a ∉ groupCells fs → (g.cells.writeAll (((groupCells fs).drop k).zip codes)).read a = g.cells.read a) ∧
      ∀ i a, (groupCells fs)[i]? = some a → (g.cells.writeAll (((groupCells fs).drop k).zip codes)).read a =
        if i < k then g.cells.read a else out i := by
  have once := grp.nodup_cells law
  have outside (a : Nat) (h : a ∉ (groupCells fs).drop k) :
      (g.cells.writeAll (((groupCells fs).drop k).zip codes)).read a = g.cells.read a := by
    refine Cells.read_writeAll_outside wf fun there => h ?_
    obtain ⟨w, hw, rfl⟩ := List.mem_map.1 there
    exact (List.of_mem_zip hw).1
  refine ⟨fun a ha => outside a fun there => ha (List.mem_of_mem_drop there), fun i a at_ => ?_⟩
  split
  · exact outside a (not_mem_drop once at_ ‹_›)
  · rename_i from_
    rw [Nat.not_lt] at from_
    have here : ((groupCells fs).drop k)[i - k]? = some a := by
      rw [List.getElem?_drop, Nat.add_sub_cancel' from_, at_]
    exact Cells.read_writeAll_zip wf (once.sublist (List.drop_sublist _ _))
      (fun b hb => grp.cells_below law b (List.mem_of_mem_drop hb)) here
      (code i from_ (List.getElem?_eq_some_iff.1 at_).1)

/-- R60: DELETE's writes close the sequence up at the cursor. -/
theorem Page.IsGroup.closedUp (law : g.FieldLaw) (grp : g.IsGroup fs) (wf : g.cells.wf)
    (at_ : (groupCells fs)[k]? = some a) : g.ClosedUp fs k (g.cells.writeAll (g.deleteWrites fs a)) := by
  refine ⟨Cells.wf_writeAll _ wf, ?_⟩
  rw [Page.deleteWrites, dropWhile_eq_drop (grp.nodup_cells law) at_]
  refine grp.read_writeAll law wf (out := fun i => if i + 1 < (groupCells fs).length then
    g.cells.read ((groupCells fs).getD (i + 1) 0) else 0x00#8) fun i from_ below => ?_
  rw [← List.map_drop, List.drop_drop]
  split
  · rename_i more
    rw [List.getElem?_append_left (by simp; omega), List.getElem?_map, List.getElem?_drop,
      show k + 1 + (i - k) = i + 1 by omega, List.getElem?_eq_getElem more, List.getD_eq_getElem _ _ more]
    rfl
  · rw [List.getElem?_append_right (by simp; omega)]
    simp only [List.length_map, List.length_drop]
    rw [show i - k - ((groupCells fs).length - (k + 1)) = 0 by omega]
    rfl

/-- R62, R63: nulls along the sequence from a place on. -/
theorem Page.IsGroup.nulled (law : g.FieldLaw) (grp : g.IsGroup fs) (wf : g.cells.wf) :
    g.Nulled fs k (g.cells.writeAll (((groupCells fs).drop k).map fun a => (a, 0x00#8))) := by
  refine ⟨Cells.wf_writeAll _ wf, ?_⟩
  have zip : (((groupCells fs).drop k).map fun a => (a, 0x00#8)) =
      ((groupCells fs).drop k).zip (((groupCells fs).drop k).map fun _ => 0x00#8) := by
    have pairs := List.zip_map' (f := id) (g := fun _ : Nat => (0x00#8 : Byte)) (l := (groupCells fs).drop k)
    rw [List.map_id] at pairs
    exact pairs.symm
  rw [zip]
  refine grp.read_writeAll law wf (out := fun _ => 0x00#8) fun i from_ below => ?_
  rw [List.getElem?_map, List.getElem?_drop, Nat.add_sub_cancel' from_, List.getElem?_eq_getElem below]
  rfl

end sequence

end Sys2Proof.Machine

namespace Sys2Proof.Machine

/-! ## What an edit makes of the marks -/

section marks

variable {g : Page} {fs : List Field} {f h : Field} {n d : Nat} {cells : Cells}

/-- A run of cells differs when one of its cells does. -/
theorem readRun_ne_iff {before after : Cells} {start length : Nat} :
    before.readRun start length ≠ after.readRun start length ↔
      ((List.range length).any fun i => after.read (start + i) != before.read (start + i)) = true := by
  rw [Cells.readRun_eq, Cells.readRun_eq, Ne, List.map_inj_left, List.any_eq_true]
  push Not
  refine exists_congr fun i => and_congr_right fun _ => ?_
  rw [bne_iff_ne, ne_comm]

theorem mem_numbers_iff : n ∈ fs.map (·.number) ↔ (fs.any fun x => x.number == n) = true := by
  simp only [List.mem_map, List.any_eq_true, beq_iff_eq]

/-- R59: the marks of the fields after a key has acted in one field of a group. -/
theorem Page.editedGroup_eq : g.fields.map (Field.afterEdit g.cells cells (fs.map (·.number)) [n] n) =
    g.editedGroup fs n cells := by
  refine List.map_congr_left fun f _ => ?_
  unfold Field.afterEdit
  by_cases here : f.number = n
  · rw [if_pos (List.mem_singleton.2 here), if_pos here, if_pos here]
    simp only [Field.touch, Field.acted, Field.mapEntry, Option.map_map]
    rfl
  · rw [if_neg (mt List.mem_singleton.1 here), if_neg here]
    simp only [mem_numbers_iff, readRun_ne_iff, Bool.and_eq_true]

/-- The fields but for the touched mark of one of them, which an entry may have cleared (R53). -/
def EnteredIn (n : Nat) (entered : Field → Field) : Prop :=
  ∀ f, entered f = f ∨ f.number = n ∧ entered f = f.mapEntry (·.entered)

/-- R53: a move of the cursor to a field enters that field at most. -/
theorem Page.entered_of_entersTo {fields : List Field} {chains : Vector (Option Chain) 4} {current : Option ChainId}
    (enters : g.entersTo d fields chains current) (at_ : g.entryAt d = some h) :
    ∃ entered, EnteredIn h.number entered ∧ fields = g.fields.map entered := by
  unfold Page.entersTo at enters
  rw [at_] at enters
  by_cases same : (g.entryAt g.cursor).any (·.number == h.number) = true
  · simp only [Option.filter_some, same, Bool.not_true, Bool.false_eq_true, if_false] at enters
    exact ⟨id, fun _ => .inl rfl, by rw [List.map_id]; exact enters.1⟩
  · simp only [Option.filter_some, same, Bool.not_false, if_true] at enters
    refine ⟨_, fun f => ?_, enters.1⟩
    by_cases here : f.number = h.number
    · exact .inr ⟨here, if_pos here⟩
    · exact .inl (if_neg here)

theorem EnteredIn.definition {entered : Field → Field} (e : EnteredIn n entered) (f : Field) :
    (entered f).definition = f.definition := by
  rcases e f with same | ⟨-, same⟩ <;> rw [same]
  exact f.definition_mapEntry fun _ => rfl

/-- R59, R63: a key that acts in the entered field touches it, whatever the entry has cleared. -/
theorem EnteredIn.afterEdit {entered : Field → Field} (e : EnteredIn n entered) {before after : Cells}
    {group acting : List Nat} (acts : n ∈ acting) (f : Field) :
    (entered f).afterEdit before after group acting n = f.afterEdit before after group acting n := by
  rcases e f with same | ⟨here, same⟩
  · rw [same]
  · have number : (f.mapEntry (·.entered)).number = f.number := rfl
    rw [same]
    unfold Field.afterEdit
    rw [number, here, if_pos acts, if_pos acts, if_pos rfl, if_pos rfl]
    simp only [Field.touch, Field.acted, Field.mapEntry, Option.map_map]
    rfl

/-- R59, R63: the marks after the clearing of a group. -/
theorem Field.afterEdit_group {before after : Cells} (head : Field) :
    f.afterEdit before after (fs.map (·.number)) (fs.map (·.number)) head.number =
      if fs.any (·.number == f.number) then
        { f with
          modified := true
          entry := f.entry.map fun x =>
            { x with hostMark := none, touched := if f.number = head.number then true else x.touched } }
      else f := by
  unfold Field.afterEdit
  by_cases member : f.number ∈ fs.map (·.number)
  · rw [if_pos member, if_pos (mem_numbers_iff.1 member)]
    by_cases here : f.number = head.number
    · rw [if_pos here]
      simp only [Field.touch, Field.acted, Field.mapEntry, Option.map_map, here, if_true]
      rfl
    · rw [if_neg here]
      simp only [Field.acted, Field.mapEntry, here, if_false]
  · rw [if_neg member, if_neg (fun h => member h.1), if_neg (mt mem_numbers_iff.2 member)]

end marks

/-! ## The edit keys on a page -/

section edits

variable {g : Page} {fs : List Field} {f h : Field} {k d : Nat}

/-- R53: the cursor moves inside its field. -/
theorem Page.arrive_inside (law : g.FieldLaw) (at_ : g.entryAt g.cursor = some f) (lower : f.start ≤ d)
    (upper : d < f.start + f.length) : g.arrive d = { g with cursor := d } := by
  obtain ⟨hf, entry, -⟩ := Page.holds_of_entryAt at_
  have there := law.entryAt hf entry lower upper
  simp only [Page.arrive, there, at_, Option.any_some, beq_self_eq_true, if_true]

/-- R60: a DELETE at a cell of the group, in the field that holds it. -/
theorem Page.deleteAt_eq (law : g.FieldLaw) (wf : g.cells.wf) (grp : g.IsGroup fs) (hf : f ∈ fs)
    (at_ : (groupCells fs)[k]? = some g.cursor) : ∃ cells : Cells, g.ClosedUp fs k cells ∧
      g.deleteAt f = { g with cells := cells, fields := g.editedGroup fs f.number cells } := by
  refine ⟨_, grp.closedUp law wf at_, ?_⟩
  rw [← Page.editedGroup_eq, Page.deleteAt, grp.group_eq law hf]
  rfl

/-- R62: the cells and marks after an ERASE-EOF. -/
theorem Page.eraseEof_eq (law : g.FieldLaw) (wf : g.cells.wf) (grp : g.IsGroup fs) (n : Nat)
    (at_ : (groupCells fs)[k]? = some g.cursor) : ∃ cells : Cells, g.Nulled fs k cells ∧
      g.editAction fs [n] n (((groupCells fs).dropWhile (· ≠ g.cursor)).map fun a => (a, 0x00#8)) =
        { g with cells := cells, fields := g.editedGroup fs n cells } := by
  refine ⟨_, grp.nulled law wf, ?_⟩
  rw [← Page.editedGroup_eq, dropWhile_eq_drop (grp.nodup_cells law) at_]
  rfl

/-- R63: the page after a CLEAR-FIELD. -/
theorem Page.clearGroup_eq (law : g.FieldLaw) (wf : g.cells.wf) (grp : g.IsGroup fs) (hf : f ∈ fs) {head : Field}
    (first : fs.head? = some head) :
    ∃ (cells : Cells) (entered : List Field) (chains : Vector (Option Chain) 4) (current : Option ChainId),
      g.Nulled fs 0 cells ∧ g.entersTo head.start entered chains current ∧
      g.clearGroup f = { g with
        cells := cells
        fields := g.fields.map fun h =>
          if fs.any (·.number == h.number) then
            { h with
              modified := true
              entry := h.entry.map fun x =>
                { x with hostMark := none, touched := if h.number = head.number then true else x.touched } }
          else h
        cursor := head.start
        chains := chains
        current := current } := by
  have hh : head ∈ fs := List.mem_of_mem_head? first
  obtain ⟨hhead, entry⟩ := grp.fields head hh
  have there := law.entryAt hhead entry (Nat.le_refl _) (by have := (law.extent head hhead).1; omega)
  obtain ⟨fields, chains, current, enters, arrived⟩ := g.arrive_entersTo head.start
  obtain ⟨entered, only, rfl⟩ := Page.entered_of_entersTo enters there
  refine ⟨_, _, chains, current, grp.nulled law wf (k := 0), enters, ?_⟩
  rw [Page.clearGroup, grp.group_eq law hf, first, Option.getD_some, arrived, List.drop_zero]
  simp only [Page.editAction, List.map_map, Function.comp_def,
    only.afterEdit (List.mem_map_of_mem (f := Field.number) hh), Field.afterEdit_group head]

end edits

end Sys2Proof.Machine

namespace Sys2Proof.Machine

/-! ## A group whose marks have changed -/

section remarked

variable {g g' : Page} {fs : List Field} {φ : Field → Field}

@[simp] theorem Field.definition_isSome_entry (f : Field) : f.definition.entry.isSome = f.entry.isSome := by
  simp [Field.definition, Field.mapEntry]

theorem Field.number_eq {f h : Field} (same : h.definition = f.definition) : h.number = f.number := by
  rw [← h.definition_number, same, f.definition_number]

theorem Field.start_eq {f h : Field} (same : h.definition = f.definition) : h.start = f.start := by
  rw [← h.definition_start, same, f.definition_start]

theorem Field.length_eq {f h : Field} (same : h.definition = f.definition) : h.length = f.length := by
  rw [← h.definition_length, same, f.definition_length]

/-- R34: a change of marks leaves a group's cells. -/
theorem groupCells_map (same : ∀ f, (φ f).definition = f.definition) : groupCells (fs.map φ) = groupCells fs := by
  unfold groupCells
  rw [List.flatMap_map]
  congr 1
  funext f
  rw [Field.start_eq (same f), Field.length_eq (same f)]

theorem map_number_map (same : ∀ f, (φ f).definition = f.definition) :
    (fs.map φ).map (·.number) = fs.map (·.number) := by
  rw [List.map_map]
  exact List.map_congr_left fun f _ => Field.number_eq (same f)

/-- R34: a change of marks leaves a group a group. -/
theorem Page.IsGroup.map (grp : g.IsGroup fs) (same : ∀ f, (φ f).definition = f.definition)
    (fields : g'.fields = g.fields.map φ) : g'.IsGroup (fs.map φ) := by
  have number (f : Field) : (φ f).number = f.number := Field.number_eq (same f)
  have link (f : Field) : (φ f).continuation = f.continuation := by
    rw [← (φ f).definition_continuation, same, f.definition_continuation]
  have at_ {i : Nat} {x : Field} (h : (fs.map φ)[i]? = some x) : ∃ f, fs[i]? = some f ∧ φ f = x := by
    rw [List.getElem?_map] at h
    exact Option.map_eq_some_iff.1 h
  refine ⟨fun x hx => ?_, fun i x y hx hy => ?_, fun x hx y hy => ?_, fun x hx => ?_⟩
  · obtain ⟨f, hf, rfl⟩ := List.mem_map.1 hx
    obtain ⟨there, entry⟩ := grp.fields f hf
    refine ⟨fields ▸ List.mem_map_of_mem there, ?_⟩
    rw [← (φ f).definition_isSome_entry, same, f.definition_isSome_entry, entry]
  · obtain ⟨f, hf, rfl⟩ := at_ hx
    obtain ⟨h, hh, rfl⟩ := at_ hy
    rw [link, number]
    exact grp.linked i f h hf hh
  · rw [List.head?_map] at hx
    obtain ⟨f, hf, rfl⟩ := Option.map_eq_some_iff.1 hx
    obtain ⟨h, hh, rfl⟩ := List.mem_map.1 (fields ▸ hy)
    rw [link, number]
    exact grp.head f hf h hh
  · rw [List.getLast?_map] at hx
    obtain ⟨f, hf, rfl⟩ := Option.map_eq_some_iff.1 hx
    rw [link]
    exact grp.last f hf

/-- R59: the marks after an edit, when the field that the key acts in has just been entered. -/
theorem EnteredIn.editedGroup {entered : Field → Field} {n : Nat} {cells : Cells} (e : EnteredIn n entered)
    (fields : g'.fields = g.fields.map entered) (before : g'.cells = g.cells) :
    g'.editedGroup (fs.map entered) n cells = g.editedGroup fs n cells := by
  rw [← Page.editedGroup_eq, ← Page.editedGroup_eq, map_number_map e.definition, fields, before, List.map_map]
  refine List.map_congr_left fun f _ => ?_
  exact e.afterEdit (List.mem_singleton_self n) f

end remarked

/-! ## The cell before a cell of the group -/

section before

variable {g : Page} {fs : List Field} {f h : Field} {k a b : Nat}

/-- The place before a place of a rising sequence. -/
theorem getElem?_pred {seq : List Nat} (rising : seq.Pairwise (· < ·)) (at_ : seq[k]? = some a) (there : b ∈ seq)
    (before : b < a) (between : ∀ x ∈ seq, x ≤ b ∨ a ≤ x) : seq[k - 1]? = some b := by
  obtain ⟨below, rfl⟩ := List.getElem?_eq_some_iff.1 at_
  obtain ⟨j, hj, rfl⟩ := List.getElem_of_mem there
  have order := List.pairwise_iff_getElem.1 rising
  have first : j < k := by
    by_contra not_
    rcases Nat.lt_or_eq_of_le (Nat.le_of_not_lt not_) with h | rfl
    · have := order k j below hj h
      omega
    · omega
  have next : ¬j + 1 < k := fun more => by
    have := order j (j + 1) hj (by omega) (Nat.lt_succ_self j)
    have := order (j + 1) k (by omega) below more
    have := between seq[j + 1] (List.getElem_mem _)
    omega
  rw [show k - 1 = j by omega, List.getElem?_eq_getElem hj]

/-- R34: a cell of one of a group's fields is a cell of the group. -/
theorem mem_groupCells (hf : f ∈ fs) (lower : f.start ≤ a) (upper : a < f.start + f.length) : a ∈ groupCells fs :=
  List.mem_flatMap.2 ⟨f, hf, List.mem_range'_1.2 ⟨lower, upper⟩⟩

/-- R61: the cell before, inside a field of the group. -/
theorem Page.IsGroup.pred_inside (law : g.FieldLaw) (grp : g.IsGroup fs) (hf : f ∈ fs)
    (at_ : (groupCells fs)[k]? = some a) (lower : f.start < a) (upper : a < f.start + f.length) :
    (groupCells fs)[k - 1]? = some (a - 1) :=
  getElem?_pred (grp.rising law) at_ (mem_groupCells hf (by omega) (by omega)) (by omega) fun x _ => by omega

/-- R61: the cell before a field's first is the last of the field that is linked to it. -/
theorem Page.IsGroup.pred_linked (law : g.FieldLaw) (grp : g.IsGroup fs) (hf : f ∈ fs) (hh : h ∈ fs)
    (link : h.continuation = some f.number) (at_ : (groupCells fs)[k]? = some f.start) :
    (groupCells fs)[k - 1]? = some (h.start + h.length - 1) := by
  obtain ⟨i, hi, rfl⟩ := List.getElem_of_mem hh
  have more : i + 1 < fs.length := by
    by_contra last
    have := grp.last fs[i] (by
      rw [List.getLast?_eq_getElem?, show fs.length - 1 = i by omega, List.getElem?_eq_getElem hi])
    rw [this] at link
    cases link
  have next := grp.linked i _ _ (List.getElem?_eq_getElem hi) (List.getElem?_eq_getElem more)
  obtain rfl : fs[i + 1] = f := law.eq_of_number (grp.fields f hf).1 (grp.fields _ (List.getElem_mem more)).1
    (Option.some.inj (next.symm.trans link))
  have order := List.pairwise_iff_getElem.1 (grp.pairwise law)
  have room := (law.extent _ (grp.fields _ hh).1).1
  have adjacent := order i (i + 1) hi more (Nat.lt_succ_self i)
  refine getElem?_pred (grp.rising law) at_ (mem_groupCells hh (by omega) (by omega)) (by omega) fun x hx => ?_
  obtain ⟨e, he, inside⟩ := List.mem_flatMap.1 hx
  obtain ⟨j, hj, rfl⟩ := List.getElem_of_mem he
  rw [List.mem_range'_1] at inside
  rcases Nat.lt_trichotomy j i with earlier | rfl | later
  · have := order j i hj hi earlier
    omega
  · omega
  · rcases Nat.lt_or_eq_of_le (show i + 1 ≤ j from later) with behind | rfl
    · have := order (i + 1) j more hj behind
      have := (law.extent _ (grp.fields _ hf).1).1
      omega
    · omega

end before

/-! ## The edit keys -/

section keys

variable {s : State} {p : PageNum} {g : Page} {f h : Field} {fs : List Field} {k : Nat}

/-- R45: a key taken on the active page acts on it without its notice. -/
theorem exec_key {c : Instr} {b : Byte} (editing : s.editing p) (code : keyCode c = some b) (other : b ≠ 0x1D#8) :
    exec c s = .next ((s.setPage p (s.page p).unnoticed).actKey p (keyOfByte b)) :=
  (exec_of_keyCode code s).trans (congrArg Host.Outcome.next (State.takeInput_editing s p b editing other))

/-- R51: a move that leaves no field takes the cursor to its place. -/
theorem State.moveCursor_of_exitOf {position : Nat} {continuation : Bool}
    (stays : (s.page p).exitOf position continuation = none) :
    s.moveCursor p position continuation = s.setPage p ((s.page p).arrive position) := by
  simp only [State.moveCursor, stays]

theorem State.deleteKey_setPage (at_ : g.entryAt g.cursor = some f) :
    (s.setPage p g).deleteKey p = s.setPage p (g.deleteAt f) := by
  simp only [State.deleteKey, State.page_setPage_self, at_, State.setPage_setPage]

/-- R61: BACKSPACE moves to the cell before, and deletes there. -/
theorem State.backspaceKey_setPage (at_ : g.entryAt g.cursor = some f)
    (stays : g.exitOf (g.backspaceMove f).1 (g.backspaceMove f).2 = none)
    (at_' : (g.arrive (g.backspaceMove f).1).entryAt (g.arrive (g.backspaceMove f).1).cursor = some h) :
    (s.setPage p g).backspaceKey p = s.setPage p ((g.arrive (g.backspaceMove f).1).deleteAt h) := by
  have stays' : ((s.setPage p g).page p).exitOf (g.backspaceMove f).1 (g.backspaceMove f).2 = none := by
    rw [State.page_setPage_self]
    exact stays
  have move := State.moveCursor_of_exitOf stays'
  rw [State.page_setPage_self, State.setPage_setPage] at move
  simp only [State.backspaceKey, State.page_setPage_self, at_, move]
  exact State.deleteKey_setPage at_'

/-- R51: a move inside a field leaves none. -/
theorem Page.exitOf_inside {d : Nat} (at_ : g.entryAt g.cursor = some f) (lower : f.start ≤ d)
    (upper : d < f.start + f.length) : g.exitOf d false = none := by
  simp [Page.exitOf, at_, Field.holds, lower, upper]

/-- R61: BACKSPACE inside a field, or at the start of a group, where the cursor stays. -/
theorem State.backspaceKey_inside (law : g.FieldLaw) (wf : g.cells.wf) (grp : g.IsGroup fs) (hf : f ∈ fs)
    (at_ : g.entryAt g.cursor = some f) {d : Nat} (move : g.backspaceMove f = (d, false)) (lower : f.start ≤ d)
    (upper : d < f.start + f.length) (place : (groupCells fs)[k]? = some d) :
    ∃ cells : Cells, g.ClosedUp fs k cells ∧ (s.setPage p g).backspaceKey p =
      s.setPage p { g with cells := cells, fields := g.editedGroup fs f.number cells, cursor := d } := by
  have arrived := Page.arrive_inside law at_ lower upper
  have below : d < 1920 := grp.cells_below law d (List.mem_of_getElem? place)
  have law' : Page.FieldLaw { g with cursor := d } := (g.tended_cursor fun _ => below).fieldLaw law
  have grp' : Page.IsGroup { g with cursor := d } fs := ⟨grp.fields, grp.linked, grp.head, grp.last⟩
  obtain ⟨cells, closed, deleted⟩ := Page.deleteAt_eq law' wf grp' hf place
  obtain ⟨hf', entry, -⟩ := Page.holds_of_entryAt at_
  refine ⟨cells, closed, ?_⟩
  rw [State.backspaceKey_setPage (h := f) at_ (by rw [move]; exact Page.exitOf_inside at_ lower upper)
    (by rw [move, arrived]; exact law'.entryAt hf' entry lower upper), move, arrived, deleted]
  rfl

/-- R61: BACKSPACE behind its field's first cell. -/
theorem State.backspaceKey_back (law : g.FieldLaw) (wf : g.cells.wf) (grp : g.IsGroup fs) (hf : f ∈ fs)
    (at_ : g.entryAt g.cursor = some f) (inside : g.cursor ≠ f.start) (place : (groupCells fs)[k]? = some g.cursor) :
    ∃ cells : Cells, g.ClosedUp fs (k - 1) cells ∧ (s.setPage p g).backspaceKey p =
      s.setPage p { g with cells := cells, fields := g.editedGroup fs f.number cells, cursor := g.cursor - 1 } := by
  obtain ⟨-, -, lower, upper⟩ := Page.holds_of_entryAt at_
  exact State.backspaceKey_inside law wf grp hf at_ (if_pos inside) (by omega) (by omega)
    (grp.pred_inside law hf place (by omega) upper)

/-- R61: BACKSPACE across a link enters the field before. -/
theorem State.backspaceKey_across (law : g.FieldLaw) (wf : g.cells.wf) (grp : g.IsGroup fs) (hf : f ∈ fs) (hh : h ∈ fs)
    (at_ : g.entryAt g.cursor = some f) (start : g.cursor = f.start) (link : h.continuation = some f.number)
    (place : (groupCells fs)[k]? = some g.cursor) :
    ∃ (cells : Cells) (entered : List Field) (chains : Vector (Option Chain) 4) (current : Option ChainId),
      g.ClosedUp fs (k - 1) cells ∧ g.entersTo (h.start + h.length - 1) entered chains current ∧
      (s.setPage p g).backspaceKey p = s.setPage p { g with
        cells := cells
        fields := g.editedGroup fs h.number cells
        cursor := h.start + h.length - 1
        chains := chains
        current := current } := by
  obtain ⟨hh', entry⟩ := grp.fields h hh
  have room := (law.extent h hh').1
  have move : g.backspaceMove f = (h.start + h.length - 1, true) := by
    simp only [Page.backspaceMove, start, ne_eq, not_true_eq_false, if_false, law.linkSource hh' link, Field.last]
  have there := law.entryAt hh' entry (a := h.start + h.length - 1) (by omega) (by omega)
  obtain ⟨fields, chains, current, enters, arrived⟩ := g.arrive_entersTo (h.start + h.length - 1)
  obtain ⟨entered, only, rfl⟩ := Page.entered_of_entersTo enters there
  have place' := grp.pred_linked law hf hh link (start ▸ place)
  have law' := (g.tended_arrive (position := h.start + h.length - 1) fun _ =>
    grp.cells_below law _ (List.mem_of_getElem? place')).fieldLaw law
  have grp' := grp.map (g' := g.arrive (h.start + h.length - 1)) only.definition (by rw [arrived])
  have number : (entered h).number = h.number := Field.number_eq (only.definition h)
  have start' : (entered h).start = h.start := Field.start_eq (only.definition h)
  have length : (entered h).length = h.length := Field.length_eq (only.definition h)
  obtain ⟨cells, closed, deleted⟩ := Page.deleteAt_eq (k := k - 1) (f := entered h) law' (by rw [arrived]; exact wf) grp'
    (List.mem_map_of_mem hh) (by rw [groupCells_map only.definition, arrived]; exact place')
  obtain ⟨hentered, entry'⟩ := grp'.fields _ (List.mem_map_of_mem hh)
  refine ⟨cells, _, chains, current, ?_, enters, ?_⟩
  · unfold Page.ClosedUp at closed ⊢
    rw [groupCells_map only.definition, arrived] at closed
    exact closed
  · rw [State.backspaceKey_setPage (h := entered h) at_ (by rw [move]; rfl) (by
      rw [move]
      refine law'.entryAt hentered entry' ?_ ?_ <;> rw [arrived] <;> simp only <;> omega), move, deleted, number,
      only.editedGroup (by rw [arrived]) (by rw [arrived]), arrived]

end keys

/-- Settles O48: each edit key, as the cells and the marks that it leaves of the group. -/
theorem editKeysActOnTheField : Obligations.EditKeysActOnTheField := by
  intro s p fs f k editing law wf grp hf at_ g seq place closed nulled acted
  have law' : g.unnoticed.FieldLaw := Page.fieldLaw_unnoticed law
  have grp' : g.unnoticed.IsGroup fs := ⟨grp.fields, grp.linked, grp.head, grp.last⟩
  have at' : g.unnoticed.entryAt g.unnoticed.cursor = some f := at_
  obtain ⟨-, -, lower, upper⟩ := Page.holds_of_entryAt (g := g) at_
  refine ⟨?_, fun inside => ?_, fun start head => ?_, fun start h hh link => ?_, ?_, fun head first => ?_⟩
  · obtain ⟨cells, closed, deleted⟩ := Page.deleteAt_eq law' wf grp' hf place
    refine ⟨cells, closed, ?_⟩
    rw [exec_key editing rfl (by decide)]
    exact congrArg Host.Outcome.next ((State.deleteKey_setPage at').trans (by rw [deleted]; rfl))
  · obtain ⟨cells, closed, deleted⟩ := State.backspaceKey_back (s := s) (p := p) law' wf grp' hf at' inside place
    refine ⟨cells, closed, ?_⟩
    rw [exec_key editing rfl (by decide)]
    exact congrArg Host.Outcome.next deleted
  · have none_ : g.unnoticed.linkSource f.number = none := Page.linkSource_none.2 (grp.head f head)
    have move : g.unnoticed.backspaceMove f = (g.cursor, false) := by
      simp only [Page.backspaceMove, none_]
      exact if_neg (not_not_intro start)
    obtain ⟨cells, closed, deleted⟩ := State.backspaceKey_inside (s := s) (p := p) law' wf grp' hf at' move lower upper place
    refine ⟨cells, closed, ?_⟩
    rw [exec_key editing rfl (by decide)]
    exact congrArg Host.Outcome.next deleted
  · obtain ⟨cells, entered, chains, current, closed, enters, deleted⟩ :=
      State.backspaceKey_across (s := s) (p := p) law' wf grp' hf hh at' start link place
    refine ⟨cells, entered, chains, current, closed, enters, ?_⟩
    rw [exec_key editing rfl (by decide)]
    exact congrArg Host.Outcome.next deleted
  · obtain ⟨cells, nulled, erased⟩ := Page.eraseEof_eq law' wf grp' f.number place
    refine ⟨cells, nulled, ?_⟩
    rw [exec_key editing rfl (by decide)]
    refine congrArg Host.Outcome.next (.trans (b := (s.setPage p g.unnoticed).eraseEofKey p) rfl ?_)
    simp only [State.eraseEofKey, State.page_setPage_self, at', grp'.group_eq law' hf, State.setPage_setPage]
    exact congrArg (s.setPage p) erased
  · obtain ⟨cells, entered, chains, current, nulled, enters, cleared⟩ := Page.clearGroup_eq law' wf grp' hf first
    refine ⟨cells, entered, chains, current, nulled, enters, ?_⟩
    rw [exec_key editing rfl (by decide)]
    refine congrArg Host.Outcome.next (.trans (b := (s.setPage p g.unnoticed).clearFieldKey p) rfl ?_)
    simp only [State.clearFieldKey, State.page_setPage_self, at', State.setPage_setPage]
    exact congrArg (s.setPage p) cleared

end Sys2Proof.Machine


/-! # The exit check's outcomes

What the exit check makes of a field's codes (R71 to R77), in the words that the statements have for them: the class's cells,
and the parts, the magnitude and the text of an amount. -/

namespace Sys2Proof.Machine

section classes

variable {e : EntryItems} {length : Nat} {codes : List Byte}

/-- R71: an empty field passes as it stands. -/
theorem exitCheck_of_empty (empty : isEmptyRun codes = true) : exitCheck e length codes = .pass codes := by
  unfold exitCheck; rw [if_pos empty]

/-- R71 to R73: the stages of a field of a class other than AMOUNT. -/
theorem exitCheck_of_class (notEmpty : isEmptyRun codes = false) (cls : e.cls ≠ .amount) :
    exitCheck e length codes =
      if codes.all (classCell e.cls) = false then .fail .eForm
      else if checkDigitHolds e.check e.cls codes = false then .fail .eCheck
      else if e.mustFill = true ∧ 0x00#8 ∈ codes then .fail .eFill
      else .pass codes := by
  unfold exitCheck
  cases formed : codes.all (classCell e.cls) <;> cases checked : checkDigitHolds e.check e.cls codes <;>
    simp [notEmpty, cls]

/-- R71: a failing stage of an AMOUNT field is the check's failure. -/
theorem exitCheck_of_amount_fail {code : ErrorCode} (notEmpty : isEmptyRun codes = false) (cls : e.cls = .amount)
    (failed : amountCheck e length codes = .fail code) : exitCheck e length codes = .fail code := by
  unfold exitCheck
  simp [notEmpty, cls, failed]

/-- R71, R73: an AMOUNT field without check digit that passes its own stages is still to be filled. -/
theorem exitCheck_of_amount_pass {out : List Byte} (notEmpty : isEmptyRun codes = false) (cls : e.cls = .amount)
    (check : e.check = .noCheck) (passed : amountCheck e length codes = .pass out) :
    exitCheck e length codes = if e.mustFill = true ∧ 0x00#8 ∈ codes then .fail .eFill else .pass out := by
  unfold exitCheck
  simp [notEmpty, cls, passed, check, checkDigitHolds]

/-- R72: the cells that a class admits, null and space among them. -/
theorem classCell_iff {cls : FieldClass} {admitted : Byte → Prop} (of :
    cls = .alpha ∧ (∀ b, admitted b ↔ 0x20 ≤ b.toNat ∧ b.toNat ≤ 0x7E) ∨
      cls = .code ∧ (∀ b, admitted b ↔ 0x30 ≤ b.toNat ∧ b.toNat ≤ 0x39 ∨ 0x41 ≤ b.toNat ∧ b.toNat ≤ 0x5A ∨
        b = 0x2D#8) ∨
      cls = .digits ∧ (∀ b, admitted b ↔ 0x30 ≤ b.toNat ∧ b.toNat ≤ 0x39)) (b : Byte) :
    classCell cls b = true ↔ b = 0x00#8 ∨ b = 0x20#8 ∨ admitted b := by
  obtain ⟨rfl, iff⟩ | ⟨rfl, iff⟩ | ⟨rfl, iff⟩ := of
  · simp [classCell, isBlank, printable, iff, or_assoc]
  · simp [classCell, isBlank, isDigit, isCapital, iff, or_assoc]
  · simp [classCell, isBlank, isDigit, iff, or_assoc]

end classes

/-! ## Numbers in decimal -/

theorem decimalCodes_of_lt {n : Nat} (h : n < 10) : decimalCodes n = [digitByte n] := by
  rw [decimalCodes, Nat.toDigits_of_lt_base h]
  revert n; decide

theorem decimalCodes_of_le {n : Nat} (h : 10 ≤ n) : decimalCodes n = decimalCodes (n / 10) ++ [digitByte (n % 10)] := by
  have digit : decimalCodes (n % 10) = [digitByte (n % 10)] := decimalCodes_of_lt (Nat.mod_lt _ (by decide))
  rw [← digit, decimalCodes, Nat.toDigits_of_base_le (by decide) h, List.map_append, decimalCodes, decimalCodes,
    Nat.toDigits_of_lt_base (Nat.mod_lt n (by decide))]

theorem decimalDigits_eq (fuel n : Nat) (acc : List Byte) (h : n < fuel) :
    decimalDigits fuel n acc = decimalCodes n ++ acc := by
  induction fuel generalizing n acc with
  | zero => omega
  | succ fuel ih =>
    rw [decimalDigits]
    split
    case isTrue small => rw [decimalCodes_of_lt small]; rfl
    case isFalse large => rw [ih _ _ (by omega), decimalCodes_of_le (n := n) (by omega)]; simp

theorem decimal_eq (n : Nat) : decimal n = decimalCodes n := by
  rw [decimal, decimalDigits_eq _ _ _ (Nat.lt_succ_self n), List.append_nil]

/-- A number's digits with leading zeros are those behind the 1 of a power of ten. -/
theorem decimalCodes_pow_add (width n : Nat) (h : n < 10 ^ width) :
    decimalCodes (10 ^ width + n) = digitByte 1 :: paddedDecimal width n := by
  induction width generalizing n with
  | zero => obtain rfl : n = 0 := by omega
            exact decimalCodes_of_lt (by decide)
  | succ width ih =>
    have split : 10 ^ (width + 1) = 10 * 10 ^ width := Nat.pow_succ'
    have low : 0 < 10 ^ width := Nat.pow_pos (by decide)
    rw [decimalCodes_of_le (by omega), show (10 ^ (width + 1) + n) / 10 = 10 ^ width + n / 10 by omega,
      show (10 ^ (width + 1) + n) % 10 = n % 10 by omega, ih _ (by omega)]
    rfl

/-- R76: the text of a magnitude. -/
theorem amountText_eq (magnitude scale : Nat) : amountText magnitude scale = magnitudeText magnitude scale := by
  rw [amountText, magnitudeText, decimal_eq,
    decimalCodes_pow_add _ _ (Nat.mod_lt _ (Nat.pow_pos (by decide))), List.drop_one, List.tail_cons]

/-! ## The parts of an amount -/

/-- The amount between its blanks (R74). -/
def AmountParsed.entry (a : AmountParsed) : List Byte :=
  (if a.negative then [0x2D#8] else []) ++ a.whole ++ if a.point then 0x2E#8 :: a.fraction else []

/-- The parts that the model's parse keeps. -/
def AmountParsed.parts (a : AmountParsed) : AmountParts :=
  { negative := a.negative, whole := a.whole, fraction := a.fraction }

theorem isBlank_iff {b : Byte} : isBlank b = true ↔ b = 0x00#8 ∨ b = 0x20#8 := by simp [isBlank]

theorem allDigits_iff {digits : List Byte} : AllDigits digits ↔ ∀ b ∈ digits, isDigit b = true := by
  simp [AllDigits, isDigit]

theorem isBlank_eq_false_of_isDigit {b : Byte} (h : isDigit b = true) : isBlank b = false := by
  revert b; decide

theorem AmountParsed.Of.whole_digits {a : AmountParsed} {signed : Bool} {codes : List Byte} (of : a.Of signed codes) :
    ∀ b ∈ a.whole, isDigit b = true := allDigits_iff.1 of.digits.1

theorem AmountParsed.Of.fraction_digits {a : AmountParsed} {signed : Bool} {codes : List Byte} (of : a.Of signed codes) :
    ∀ b ∈ a.fraction, isDigit b = true := allDigits_iff.1 of.digits.2

theorem AmountParsed.Of.entry_not_blank {a : AmountParsed} {signed : Bool} {codes : List Byte} (of : a.Of signed codes) :
    ∀ b ∈ a.entry, isBlank b = false := by
  intro b m
  simp only [AmountParsed.entry, List.mem_append] at m
  obtain (m | m) | m := m
  · split at m
    · obtain rfl := List.mem_singleton.1 m; rfl
    · cases m
  · exact isBlank_eq_false_of_isDigit (of.whole_digits b m)
  · split at m
    · obtain rfl | m := List.mem_cons.1 m
      · rfl
      · exact isBlank_eq_false_of_isDigit (of.fraction_digits b m)
    · cases m

/-- Codes of which none is blank keep them all. -/
theorem dropWhile_isBlank_of_solid {codes : List Byte} (solid : ∀ b ∈ codes, isBlank b = false) :
    codes.dropWhile isBlank = codes :=
  List.dropWhile_eq_self_iff.2 fun _ => by rw [solid _ (List.getElem_mem _)]; exact Bool.false_ne_true

/-- R74: the blanks around a run without blanks go. -/
theorem trimmed_append {lead entry trail : List Byte} (blanks : ∀ b ∈ lead ++ trail, isBlank b = true)
    (solid : ∀ b ∈ entry, isBlank b = false) (present : entry ≠ []) : trimmed (lead ++ entry ++ trail) = entry := by
  have front : (lead ++ entry ++ trail).dropWhile isBlank = entry ++ trail := by
    rw [List.append_assoc, List.dropWhile_append_of_pos fun b m => blanks b (List.mem_append_left _ m)]
    obtain ⟨b, rest, rfl⟩ := List.exists_cons_of_ne_nil present
    rw [List.cons_append, List.dropWhile_cons, solid b (by simp)]
    rfl
  have back : (entry ++ trail).reverse.dropWhile isBlank = entry.reverse := by
    rw [List.reverse_append, List.dropWhile_append_of_pos fun b m =>
      blanks b (List.mem_append_right _ (List.mem_reverse.1 m))]
    exact dropWhile_isBlank_of_solid fun b m => solid b (List.mem_reverse.1 m)
  rw [trimmed, front, back, List.reverse_reverse]

/-- R74: what is trimmed away stands before and behind, and is blank. -/
theorem exists_trimmed (codes : List Byte) :
    ∃ lead trail, codes = lead ++ trimmed codes ++ trail ∧ ∀ b ∈ lead ++ trail, isBlank b = true := by
  have back := List.takeWhile_append_dropWhile (p := isBlank) (l := (codes.dropWhile isBlank).reverse)
  refine ⟨codes.takeWhile isBlank, ((codes.dropWhile isBlank).reverse.takeWhile isBlank).reverse, ?_, fun b m => ?_⟩
  · rw [List.append_assoc, trimmed, ← List.reverse_append, back, List.reverse_reverse, List.takeWhile_append_dropWhile]
  · obtain m | m := List.mem_append.1 m
    · exact List.mem_takeWhile_imp m
    · exact List.mem_takeWhile_imp (List.mem_reverse.1 m)

end Sys2Proof.Machine


namespace Sys2Proof.Machine

/-! ## The parse of an amount -/

theorem AmountParsed.Of.entry_ne_nil {a : AmountParsed} {signed : Bool} {codes : List Byte} (of : a.Of signed codes) :
    a.entry ≠ [] := by
  intro none_
  simp only [AmountParsed.entry, List.append_eq_nil_iff] at none_
  obtain ⟨⟨-, whole⟩, tail⟩ := none_
  cases point : a.point with
  | false => exact of.present (by rw [whole, of.pointed point]; rfl)
  | true => simp [point] at tail

theorem AmountParsed.Of.trimmed_eq {a : AmountParsed} {signed : Bool} {codes : List Byte} (of : a.Of signed codes) :
    trimmed codes = a.entry := by
  rw [show codes = a.lead ++ a.entry ++ a.trail by
    rw [of.codes, AmountParsed.entry]; simp only [List.append_assoc]]
  exact trimmed_append (fun b m => isBlank_iff.2 (of.blanks b m)) of.entry_not_blank of.entry_ne_nil

/-- R74: what follows a sign is digits and a point. -/
theorem AmountParsed.Of.head?_unsigned {a : AmountParsed} {signed : Bool} {codes : List Byte} (of : a.Of signed codes) :
    (a.whole ++ if a.point then 0x2E#8 :: a.fraction else []).head? ≠ some 0x2D#8 := by
  cases whole : a.whole with
  | nil => cases a.point <;> simp
  | cons b rest =>
    have digit := of.whole_digits b (by simp [whole])
    rintro h
    obtain rfl : b = 0x2D#8 := by simpa using h
    exact absurd digit (by decide)

/-- R74: the parse of an amount's entry finds its parts. -/
theorem AmountParsed.Of.parseAmount_eq {a : AmountParsed} {signed : Bool} {codes : List Byte} (of : a.Of signed codes) :
    parseAmount signed a.entry = some a.parts := by
  have negative : (signed && a.entry.head? == some 0x2D#8) = a.negative := by
    cases sign : a.negative with
    | true => simp [AmountParsed.entry, sign, of.sign sign]
    | false =>
      have head := of.head?_unsigned
      simp only [AmountParsed.entry, sign, Bool.and_eq_false_imp]
      intro _
      simpa using head
  have digits : (if a.negative = true then a.entry.drop 1 else a.entry) =
      a.whole ++ if a.point then 0x2E#8 :: a.fraction else [] := by
    cases sign : a.negative <;> simp [AmountParsed.entry, sign]
  have stop : ∀ tail : List Byte, (∀ b ∈ tail.head?, isDigit b = false) →
      (a.whole ++ tail).takeWhile isDigit = a.whole ∧ (a.whole ++ tail).dropWhile isDigit = tail := by
    intro tail first
    rw [List.takeWhile_append_of_pos of.whole_digits, List.dropWhile_append_of_pos of.whole_digits]
    cases tail with
    | nil => simp
    | cons b rest => simp [first b (by simp)]
  unfold parseAmount
  simp only [negative, digits]
  cases point : a.point with
  | false =>
    have fraction := of.pointed point
    have whole : a.whole ≠ [] := fun none_ => of.present (by rw [none_, fraction]; rfl)
    obtain ⟨taken, dropped⟩ := stop [] (by simp)
    simp only [Bool.false_eq_true, if_false, taken, dropped, List.isEmpty_iff, if_neg whole, AmountParsed.parts, fraction]
  | true =>
    obtain ⟨taken, dropped⟩ := stop (0x2E#8 :: a.fraction) (by simp [isDigit])
    have present : (a.whole.isEmpty && a.fraction.isEmpty) = false := by
      rw [Bool.eq_false_iff]
      intro none_
      obtain ⟨whole, fraction⟩ := Bool.and_eq_true_iff.1 none_
      exact of.present (by rw [List.isEmpty_iff.1 whole, List.isEmpty_iff.1 fraction]; rfl)
    have fraction : a.fraction.all isDigit = true := List.all_eq_true.2 of.fraction_digits
    simp only [if_true, taken, dropped, present, fraction, beq_self_eq_true, Bool.and_self, Bool.not_false,
      AmountParsed.parts]

/-- R74: a sign that is read stands in front of the digits. -/
theorem sign_append_digits {signed negative : Bool} {entry : List Byte}
    (sign : (signed && entry.head? == some 0x2D#8) = negative) :
    entry = (if negative then [0x2D#8] else []) ++ if negative then entry.drop 1 else entry := by
  cases negative with
  | false => rfl
  | true =>
    obtain ⟨-, head⟩ := Bool.and_eq_true_iff.1 sign
    cases entry with
    | nil => cases head
    | cons b rest => obtain rfl : b = 0x2D#8 := by simpa using head
                     rfl

/-- R74: codes that parse as an amount have its parts. -/
theorem exists_of_of_parseAmount {signed : Bool} {codes : List Byte} {parts : AmountParts}
    (parsed : parseAmount signed (trimmed codes) = some parts) : ∃ a : AmountParsed, a.Of signed codes := by
  obtain ⟨lead, trail, surround, blank⟩ := exists_trimmed codes
  have blanks : ∀ b ∈ lead ++ trail, b = 0x00#8 ∨ b = 0x20#8 := fun b m => isBlank_iff.1 (blank b m)
  generalize trimmed codes = entry at parsed surround
  unfold parseAmount at parsed
  generalize sign : (signed && entry.head? == some 0x2D#8) = negative at parsed
  have entry_eq := sign_append_digits sign
  have signed_ : negative = true → signed = true := fun h => by rw [h] at sign; exact (Bool.and_eq_true_iff.1 sign).1
  simp only at parsed
  generalize (if negative then entry.drop 1 else entry) = digits at parsed entry_eq
  have wholeDigits : AllDigits (digits.takeWhile isDigit) := allDigits_iff.2 fun b m => List.mem_takeWhile_imp m
  rw [← List.takeWhile_append_dropWhile (p := isDigit) (l := digits)] at entry_eq
  generalize digits.takeWhile isDigit = whole at parsed entry_eq wholeDigits
  generalize digits.dropWhile isDigit = tail at parsed entry_eq
  cases tail with
  | nil =>
    by_cases present : whole = []
    · simp [present] at parsed
    · exact ⟨⟨lead, negative, whole, false, [], trail⟩, by rw [surround, entry_eq]; simp, blanks,
        ⟨wholeDigits, by simp [AllDigits]⟩, by simpa using present, fun _ => rfl, signed_⟩
  | cons point fraction =>
    by_cases formed : (point == 0x2E#8 && fraction.all isDigit && !(whole.isEmpty && fraction.isEmpty)) = true
    · simp only [Bool.and_eq_true, beq_iff_eq, Bool.not_eq_true', Bool.and_eq_false_iff] at formed
      obtain ⟨⟨rfl, fractionDigits⟩, present⟩ := formed
      exact ⟨⟨lead, negative, whole, true, fraction, trail⟩, by rw [surround, entry_eq]; simp, blanks,
        ⟨wholeDigits, allDigits_iff.2 (List.all_eq_true.1 fractionDigits)⟩,
        by simpa [List.append_eq_nil_iff, or_iff_not_imp_left] using present, fun h => Bool.noConfusion h, signed_⟩
    · simp only [if_neg formed] at parsed
      cases parsed

/-! ## The stages of an amount -/

/-- R74: codes that read as no amount are not formed. -/
theorem amountCheck_of_none {e : EntryItems} {length : Nat} {codes : List Byte}
    (none_ : ∀ a : AmountParsed, ¬a.Of e.signed codes) : amountCheck e length codes = .fail .eForm := by
  cases parsed : parseAmount e.signed (trimmed codes) with
  | none => simp only [amountCheck, parsed]
  | some parts =>
    obtain ⟨a, of⟩ := exists_of_of_parseAmount parsed
    exact absurd of (none_ a)

/-- The sign of an amount in its normal form (R76). -/
def AmountParsed.signText (a : AmountParsed) (scale : Nat) : List Byte :=
  if a.negative = true ∧ a.magnitude scale ≠ 0 then [0x2D#8] else []

/-- R74 to R77: the stages of codes that read as an amount. -/
theorem AmountParsed.Of.amountCheck_eq {a : AmountParsed} {e : EntryItems} {length : Nat} {codes : List Byte}
    (of : a.Of e.signed codes) :
    amountCheck e length codes =
      let text := magnitudeText (a.magnitude e.scale) e.scale
      let room := length - ((a.signText e.scale).length + text.length)
      if e.scale < a.fraction.length then .fail .eScale
      else if ¬((e.bound = 0 ∨ a.magnitude e.scale ≤ e.bound) ∧ (a.signText e.scale).length + text.length ≤ length) then
        .fail .eRange
      else .pass (if e.zeroFill then a.signText e.scale ++ List.replicate room 0x30#8 ++ text
        else List.replicate room 0x20#8 ++ a.signText e.scale ++ text) := by
  have parsed : parseAmount e.signed (trimmed codes) = some a.parts := by rw [of.trimmed_eq, of.parseAmount_eq]
  have sign : a.signText e.scale = if (a.negative && a.magnitude e.scale != 0) then [0x2D#8] else [] := by
    simp [AmountParsed.signText]
  have width : (a.signText e.scale).length = if (a.negative && a.magnitude e.scale != 0) then 1 else 0 := by
    rw [sign]; split <;> rfl
  have magnitude : decimalValue (a.whole ++ a.fraction) * 10 ^ (e.scale - a.fraction.length) = a.magnitude e.scale := rfl
  simp only [amountCheck, parsed, AmountParsed.parts, magnitude, amountText_eq, justified, ← sign, ← width]
  by_cases bounded : e.bound = 0 ∨ a.magnitude e.scale ≤ e.bound
  · have within : ¬(e.bound ≠ 0 ∧ e.bound < a.magnitude e.scale) := by omega
    simp only [if_neg within, bounded, true_and, Nat.not_le, Nat.add_comm]
  · have beyond : e.bound ≠ 0 ∧ e.bound < a.magnitude e.scale := by omega
    simp only [if_pos beyond, bounded, false_and, not_false_eq_true, if_true]

end Sys2Proof.Machine


/-! # Where the cursor keys go

On a page that keeps the law of fields the list order of the ENTRY fields is the order of their starts, so the model's
searches find the places that R48 to R50 name. -/

namespace Sys2Proof.Machine

section starts

variable {fs : List Field} {P : Field → Prop} {p : Field → Bool} {d : Nat}

/-- The first field found is the one that starts first. -/
theorem find?_of_isFirstStart (sorted : fs.Pairwise fun f h => f.start < h.start) (iff : ∀ f, p f = true ↔ P f)
    (first : IsFirstStart fs P d) : ∃ f, fs.find? p = some f ∧ f.start = d := by
  obtain ⟨f, hf, meets, rfl, least⟩ := first
  obtain ⟨h, found⟩ := Option.isSome_iff_exists.1 (List.find?_isSome.2 ⟨f, hf, (iff f).2 meets⟩)
  refine ⟨h, found, ?_⟩
  obtain ⟨meets', before, after, rfl, skipped⟩ := List.find?_eq_some_iff_append.1 found
  obtain m | m := List.mem_append.1 hf
  · exact absurd ((iff f).2 meets) (by simpa using skipped f m)
  · obtain rfl | m := List.mem_cons.1 m
    · rfl
    · have := List.rel_of_pairwise_cons (List.pairwise_append.1 sorted).2.1 m
      have := least h (by simp) ((iff h).1 meets')
      omega

theorem head?_of_isFirstStart (sorted : fs.Pairwise fun f h => f.start < h.start)
    (first : IsFirstStart fs (fun _ => True) d) : ∃ f, fs.head? = some f ∧ f.start = d := by
  obtain ⟨f, found, start⟩ := find?_of_isFirstStart (p := fun _ => true) sorted (fun _ => by simp) first
  exact ⟨f, by rw [← found]; cases fs <;> rfl, start⟩

/-- The last field that passes a filter is the one that starts last. -/
theorem getLast?_of_isLastStart (sorted : fs.Pairwise fun f h => f.start < h.start) (iff : ∀ f, p f = true ↔ P f)
    (last : IsLastStart fs P d) : ∃ f, (fs.filter p).getLast? = some f ∧ f.start = d := by
  obtain ⟨f, hf, meets, rfl, greatest⟩ := last
  have hf' : f ∈ fs.filter p := List.mem_filter.2 ⟨hf, (iff f).2 meets⟩
  obtain ⟨h, found⟩ : ∃ h, (fs.filter p).getLast? = some h :=
    ⟨_, List.getLast?_eq_some_getLast (List.ne_nil_of_mem hf')⟩
  refine ⟨h, found, ?_⟩
  obtain ⟨hh, meets'⟩ := List.mem_filter.1 (List.mem_of_getLast? found)
  obtain ⟨before, split⟩ := List.getLast?_eq_some_iff.1 found
  have sorted' := sorted.filter p
  rw [split] at sorted' hf'
  obtain m | m := List.mem_append.1 hf'
  · have := (List.pairwise_append.1 sorted').2.2 f m h (by simp)
    have := greatest h hh ((iff h).1 meets')
    omega
  · rw [List.mem_singleton.1 m]

end starts

section places

variable {g : Page} {d : Nat}

theorem Page.FieldLaw.entry_starts (law : g.FieldLaw) : g.entryFields.Pairwise fun f h => f.start < h.start :=
  law.starts.filter _

/-- R48: the first ENTRY field behind a position. -/
theorem Page.nextEntry_eq {position : Nat} (law : g.FieldLaw)
    (first : IsFirstStart g.entryFields (fun f => position < f.start) d ∨
      (∀ f ∈ g.entryFields, f.start ≤ position) ∧ IsFirstStart g.entryFields (fun _ => True) d ∨
      g.entryFields = [] ∧ d = 0) : g.nextEntry position = d := by
  obtain first | ⟨behind, first⟩ | ⟨none_, rfl⟩ := first
  · obtain ⟨f, found, rfl⟩ := find?_of_isFirstStart law.entry_starts (fun _ => decide_eq_true_iff) first
    simp only [Page.nextEntry, found]
  · obtain ⟨f, head, rfl⟩ := head?_of_isFirstStart law.entry_starts first
    have missing : g.entryFields.find? (fun f => position < f.start) = none :=
      List.find?_eq_none.2 fun f hf => by simpa using behind f hf
    simp only [Page.nextEntry, missing, head]
  · simp only [Page.nextEntry, none_, List.find?_nil, List.head?_nil]

/-- R50: the first ENTRY field from the next row on. -/
theorem Page.newlineEntry_eq (law : g.FieldLaw)
    (first : IsFirstStart g.entryFields (fun f => (g.cursor / 80 + 1) * 80 ≤ f.start) d ∨
      (∀ f ∈ g.entryFields, f.start < (g.cursor / 80 + 1) * 80) ∧ IsFirstStart g.entryFields (fun _ => True) d ∨
      g.entryFields = [] ∧ d = (g.cursor / 80 + 1) * 80 % 1920) : g.newlineEntry = d := by
  obtain first | ⟨behind, first⟩ | ⟨none_, rfl⟩ := first
  · obtain ⟨f, found, rfl⟩ := find?_of_isFirstStart law.entry_starts (fun _ => decide_eq_true_iff) first
    simp only [Page.newlineEntry, found]
  · obtain ⟨f, head, rfl⟩ := head?_of_isFirstStart law.entry_starts first
    have missing : g.entryFields.find? (fun f => (g.cursor / 80 + 1) * 80 ≤ f.start) = none :=
      List.find?_eq_none.2 fun f hf => by simpa using behind f hf
    simp only [Page.newlineEntry, missing, head]
  · simp only [Page.newlineEntry, none_, List.find?_nil, List.head?_nil]

/-- R50: the page's first ENTRY field. -/
theorem Page.firstEntry_eq (law : g.FieldLaw)
    (first : IsFirstStart g.entryFields (fun _ => True) d ∨ g.entryFields = [] ∧ d = 0) : g.firstEntry = d := by
  obtain first | ⟨none_, rfl⟩ := first
  · obtain ⟨f, head, rfl⟩ := head?_of_isFirstStart law.entry_starts first
    simp only [Page.firstEntry, head, Option.map_some, Option.getD_some]
  · simp only [Page.firstEntry, none_, List.head?_nil, Option.map_none, Option.getD_none]

theorem Page.within_eq_none (outside : ¬∃ f, g.entryAt g.cursor = some f ∧ f.start < g.cursor) :
    (g.entryAt g.cursor).filter (fun f => f.start < g.cursor) = none :=
  Option.filter_eq_none_iff.2 fun f at_ inside => outside ⟨f, at_, of_decide_eq_true inside⟩

/-- R49: the start of the cursor's field from inside it, the last ENTRY field before the cursor, or the page's last. -/
theorem Page.previousEntry_eq (law : g.FieldLaw)
    (last : (∃ f, g.entryAt g.cursor = some f ∧ f.start < g.cursor ∧ d = f.start) ∨
      (¬∃ f, g.entryAt g.cursor = some f ∧ f.start < g.cursor) ∧
        IsLastStart g.entryFields (fun f => f.start < g.cursor) d ∨
      (¬∃ f, g.entryAt g.cursor = some f ∧ f.start < g.cursor) ∧ (∀ f ∈ g.entryFields, g.cursor ≤ f.start) ∧
        IsLastStart g.entryFields (fun _ => True) d ∨
      g.entryFields = [] ∧ d = 0) : g.previousEntry = d := by
  obtain ⟨f, at_, inside, rfl⟩ | ⟨outside, last⟩ | ⟨outside, behind, last⟩ | ⟨none_, rfl⟩ := last
  · simp only [Page.previousEntry, at_, Option.filter_some, inside, decide_true, if_true]
  · obtain ⟨f, found, rfl⟩ := getLast?_of_isLastStart law.entry_starts (fun _ => decide_eq_true_iff) last
    simp only [Page.previousEntry, Page.within_eq_none outside, found]
  · obtain ⟨f, found, rfl⟩ := getLast?_of_isLastStart (p := fun _ => true) law.entry_starts (fun _ => by simp) last
    have missing : g.entryFields.filter (fun f => f.start < g.cursor) = [] :=
      List.filter_eq_nil_iff.2 fun f hf => by simpa using behind f hf
    rw [List.filter_true] at found
    simp only [Page.previousEntry, Page.within_eq_none outside, missing, List.getLast?_nil, found]
  · have outside : ¬∃ f, g.entryAt g.cursor = some f ∧ f.start < g.cursor := fun ⟨f, at_, _⟩ => by
      obtain ⟨hf, entry, -, -⟩ := Page.holds_of_entryAt at_
      exact absurd (List.mem_filter.2 ⟨hf, entry⟩) (by rw [← Page.entryFields, none_]; exact List.not_mem_nil)
    simp only [Page.previousEntry, Page.within_eq_none outside, none_, List.filter_nil, List.getLast?_nil]

end places

/-- R47 to R50: the key that acts as a move to its place. -/
theorem State.actKey_of_goesTo {s : State} {p : PageNum} {c : Instr} {d : Nat} (law : (s.page p).FieldLaw)
    (goes : (s.page p).ArrowGoesTo c d ∨ (s.page p).FieldKeyGoesTo c d) :
    ∃ b k, keyCode c = some b ∧ b ≠ 0x1D#8 ∧ keyOfByte b = k ∧ s.actKey p k = s.moveCursor p d false := by
  obtain (⟨rfl, goes⟩ | ⟨rfl, goes⟩ | ⟨rfl, goes⟩ | ⟨rfl, goes⟩) |
    ⟨rfl, first⟩ | ⟨rfl, last⟩ | ⟨rfl, first⟩ | ⟨rfl, first⟩ := goes
  · exact ⟨0x80#8, .left, rfl, by decide, rfl, by rw [goes]; rfl⟩
  · exact ⟨0x81#8, .right, rfl, by decide, rfl, by rw [goes]; rfl⟩
  · exact ⟨0x82#8, .up, rfl, by decide, rfl, by rw [goes]; rfl⟩
  · exact ⟨0x83#8, .down, rfl, by decide, rfl, by rw [goes]; rfl⟩
  · obtain rfl := Page.nextEntry_eq law first
    exact ⟨0x84#8, .tab, rfl, by decide, rfl, rfl⟩
  · obtain rfl := Page.previousEntry_eq law last
    exact ⟨0x85#8, .backtab, rfl, by decide, rfl, rfl⟩
  · obtain rfl := Page.firstEntry_eq law first
    exact ⟨0x86#8, .home, rfl, by decide, rfl, rfl⟩
  · obtain rfl := Page.newlineEntry_eq law first
    exact ⟨0x87#8, .newline, rfl, by decide, rfl, rfl⟩

/-- R47 to R51: each cursor key is a move to its place. -/
theorem exec_cursorKey {s : State} {p : PageNum} {c : Instr} {d : Nat} (editing : s.editing p)
    (law : (s.page p).FieldLaw) (goes : (s.page p).ArrowGoesTo c d ∨ (s.page p).FieldKeyGoesTo c d) :
    exec c s = .next ((s.setPage p (s.page p).unnoticed).moveCursor p d false) := by
  have page : (s.setPage p (s.page p).unnoticed).page p = (s.page p).unnoticed := State.page_setPage_self _ _ _
  obtain ⟨b, k, code, other, key, acts⟩ := State.actKey_of_goesTo (s := s.setPage p (s.page p).unnoticed)
    (by rw [page]; exact Page.fieldLaw_unnoticed law) (by rw [page]; exact goes)
  rw [exec_key editing code other, key, acts]

end Sys2Proof.Machine


/-! # Exits of a touched field

What a cursor move out of a touched field makes of the state (R51 to R54), in the words of `State.ExitTo`. -/

namespace Sys2Proof.Machine

section send

variable {s : State} {p : PageNum}

/-- R6: promotion does not look at the reports. -/
theorem State.promote_withReports (s : State) (r : ReportUnit) :
    ({ s with reports := r } : State).promote = { s.promote with reports := r } := by
  obtain ⟨t, same⟩ : ∃ t : State, t = { s with reports := r } := ⟨_, rfl⟩
  rw [← same]
  cases active : s.active with
  | some a => rw [State.promote_active active, State.promote_active (s := t) (by rw [same]; exact active), same]
  | none =>
    have active' : t.active = none := by rw [same]; exact active
    cases ready : s.ready with
    | nil => rw [State.promote_empty ready, State.promote_empty (s := t) (by rw [same]; exact ready), same]
    | cons q rest => rw [State.promote_head active ready, State.promote_head active' (by rw [same]; exact ready), same]; rfl

/-- With no report queued, no send key id is there to differ. -/
theorem State.sentWith_of_reports {t : State} (id : Nat) (same : t.reports = s.reports) : s.sentWith t id = t := by
  have all : t.reports.queue.take s.reports.queue.length ++
      (t.reports.queue.drop s.reports.queue.length).map (Report.withSendKey id) = t.reports.queue := by
    rw [same, List.take_length, List.drop_length, List.map_nil, List.append_nil]
  unfold State.sentWith
  rw [all]

/-- R54, R85: the sends of one page differ in the send key id of the entry report that joins the queue. -/
theorem State.send_eq_sentWith (s : State) (p : PageNum) (g : Page) (id id' : Nat) :
    (s.setPage p g).send p id = (s.setPage p g).sentWith ((s.setPage p g).send p id') id := by
  obtain ⟨v, failure, valid⟩ : ∃ v failure, g.validateSend = { page := v, failure := failure } := ⟨_, _, rfl⟩
  cases failure with
  | some code =>
    rw [State.send_of_failure valid, State.send_of_failure valid]
    exact (State.sentWith_of_reports id rfl).symm
  | none =>
    by_cases full : 8 ≤ s.reports.queue.length
    · rw [State.send_of_full valid full, State.send_of_full valid full]
      exact (State.sentWith_of_reports id rfl).symm
    · have sent : ∀ n, (s.setPage p g).send p n = { (s.setPage p v.sent).leaveActive.promote with
          reports := { s.reports with queue := s.reports.queue ++ [.entry (entryReportOf p v.sent n)] } } := fun n =>
        (State.send_of_free valid (Nat.not_le.1 full)).trans
          (State.promote_withReports (s.setPage p v.sent).leaveActive _)
      rw [sent id, sent id', State.sentWith]
      simp only [State.setPage_reports, List.take_left, List.drop_left]
      rfl

end send

section exits

variable {s : State} {p : PageNum} {g : Page} {f : Field} {e : EntryItems} {d : Nat}

/-- R51: a move to a place outside the field under the cursor exits that field. -/
theorem Page.exitOf_outside (at_ : g.entryAt g.cursor = some f) (outside : d < f.start ∨ f.start + f.length ≤ d) :
    g.exitOf d false = some f := by
  have holds : f.holds d = false := by simp only [Field.holds, Bool.and_eq_false_iff, decide_eq_false_iff_not]; omega
  simp [Page.exitOf, at_, holds]

/-- R52, R65: a failing exit check. -/
theorem State.moveCursor_of_fail {code : ErrorCode} (exits : g.exitOf d false = some f) (touched : f.touched = true)
    (fails : g.checkField f = .fail code) :
    (s.setPage p g).moveCursor p d false =
      { s.setPage p ((g.failExit f code).held code) with keys := { s.keys with queue := [] } } := by
  simp only [State.moveCursor, State.page_setPage_self, exits, touched, if_true, fails, State.enterHold_eq,
    State.setPage_setPage]
  rfl

/-- R52 to R54: a passing exit check, the move and the exit option. -/
theorem State.moveCursor_of_pass {out : List Byte} (exits : g.exitOf d false = some f) (touched : f.touched = true)
    (passes : g.checkField f = .pass out) :
    (s.setPage p g).moveCursor p d false = (s.setPage p ((g.passExit f out).arrive d)).exitOption p f := by
  simp only [State.moveCursor, State.page_setPage_self, exits, touched, if_true, passes, State.setPage_setPage]

/-- R70, R77: the page that a passing exit check leaves, but for its cells. -/
theorem Page.passExit_eq (g : Page) (f : Field) (out : List Byte) :
    g.passExit f out = { g with
      fields := g.fields.map fun h =>
        if h.number = f.number then { h with entry := h.entry.map fun x => { x with touched := false, checkError := none } }
        else h
      cells := (g.writeChecked f out).cells } := by
  rw [Page.passExit, Page.writeChecked_eq]
  rfl

theorem Page.checkField_eq (g : Page) (entry : f.entry = some e) :
    g.checkField f = exitCheck e f.length (g.fieldCodes f) := by
  simp only [Page.checkField, entry, g.codesOf_eq]

/-- R90: pages of one hold and one mark are open to the operator alike. -/
theorem State.editing_setPage_of {m : Page} (editing : (s.setPage p g).editing p) (hold : m.hold = g.hold)
    (mark : m.inFlight = g.inFlight) : (s.setPage p m).editing p := by
  have open_ := State.editing_setPage (g := m) editing (by rw [State.page_setPage_self, hold])
    (by rw [State.page_setPage_self, mark])
  rwa [State.setPage_setPage] at open_

/-- R54: a send on behalf of an exit is ENTER's, but for its id. -/
theorem State.exitOption_send (editing : (s.setPage p g).editing p) (unnoticed : g.notice = none) (entry : f.entry = some e)
    (option : e.exitOption = .send) :
    ∃ v, exec .enter (s.setPage p g) = .next v ∧ (s.setPage p g).exitOption p f = (s.setPage p g).sentWith v 14 := by
  have same : g.unnoticed = g := by rw [Page.unnoticed, ← unnoticed]
  refine ⟨(s.setPage p g).send p 0, ?_, ?_⟩
  · rw [exec_sendKey editing (.inl ⟨rfl, rfl⟩), State.page_setPage_self, State.setPage_setPage, same]
  · simp only [State.exitOption, entry, option]
    exact State.send_eq_sentWith s p g 14 0

/-- R54: the exit option that raises an attention. -/
theorem State.exitOption_attn (entry : f.entry = some e) (option : e.exitOption = .attn) :
    s.exitOption p f = s.attended p (.exit f.number) { (s.page p).attention with exit := some f.number } := by
  simp only [State.exitOption, entry, option, State.raiseAttention_eq]
  rfl

/-- R51 to R54, R65: a cursor move out of a touched field. -/
theorem State.exitTo_moveCursor (editing : (s.setPage p g).editing p) (law : g.FieldLaw) (wf : g.cells.wf)
    (unnoticed : g.notice = none) (at_ : g.entryAt g.cursor = some f) (entry : f.entry = some e) (touched : e.touched = true)
    (outside : d < f.start ∨ f.start + f.length ≤ d) :
    (s.setPage p g).ExitTo p f e d ((s.setPage p g).moveCursor p d false) := by
  have exits : g.exitOf d false = some f := Page.exitOf_outside at_ outside
  have touched' : f.touched = true := by simp [Field.touched, entry, touched]
  obtain ⟨some_, upper, fits⟩ := law.extent f (Page.holds_of_entryAt at_).1
  simp only [State.ExitTo, State.page_setPage_self, State.setPage_setPage]
  refine ⟨fun code fails => ?_, fun out passes => ?_⟩
  · exact State.moveCursor_of_fail exits touched' ((Page.checkField_eq g entry).trans fails)
  · have length : out.length = f.length := length_of_exitCheck passes (by simp)
    obtain ⟨wf', reads⟩ := Page.cells_writeChecked (g := g) wf some_ fits entry length
    refine ⟨(g.writeChecked f out).cells, wf', reads, ?_⟩
    obtain ⟨fields, chains, current, enters, arrived⟩ := (g.passExit f out).arrive_entersTo d
    rw [Page.passExit_eq] at enters arrived
    refine ⟨fields, chains, current, enters, ?_⟩
    rw [State.moveCursor_of_pass exits touched' ((Page.checkField_eq g entry).trans passes), Page.passExit_eq, arrived]
    refine ⟨fun option => ?_, fun option => ?_, fun option => ?_⟩
    · simp only [State.exitOption, entry, option]
    · rw [State.exitOption_attn entry option, State.page_setPage_self]
    · exact State.exitOption_send (State.editing_setPage_of editing rfl rfl) unnoticed entry option

end exits

end Sys2Proof.Machine


namespace Sys2Proof.Machine

section outcomes

variable {e : EntryItems} {length : Nat} {codes : List Byte}

theorem isEmptyRun_eq_false (solid : ¬∀ b ∈ codes, b = 0x00#8 ∨ b = 0x20#8) : isEmptyRun codes = false := by
  rw [Bool.eq_false_iff, Ne, isEmptyRun_iff]
  exact solid

/-- R73: a field that is to be filled and holds a null. -/
theorem not_filled_iff : ¬(e.mustFill = false ∨ 0x00#8 ∉ codes) ↔ e.mustFill = true ∧ 0x00#8 ∈ codes := by
  rw [not_or, Bool.not_eq_false, not_not]

/-- R71 to R73: the outcomes in a field of a class other than AMOUNT. -/
theorem exitCheck_class_outcomes {admitted : Byte → Prop} (cls : e.cls ≠ .amount)
    (cell : ∀ b, classCell e.cls b = true ↔ b = 0x00#8 ∨ b = 0x20#8 ∨ admitted b) :
    let blank := ∀ b ∈ codes, b = 0x00#8 ∨ b = 0x20#8
    let filled := e.mustFill = false ∨ 0x00#8 ∉ codes
    let formed := ∀ b ∈ codes, b = 0x00#8 ∨ b = 0x20#8 ∨ admitted b
    let checked := e.check = .noCheck ∨ checkDigitHolds e.check e.cls codes = true
    (¬formed → exitCheck e length codes = .fail .eForm) ∧
      (formed → ¬blank → ¬checked → exitCheck e length codes = .fail .eCheck) ∧
      (formed → ¬blank → checked → ¬filled → exitCheck e length codes = .fail .eFill) ∧
      (formed → checked → filled → exitCheck e length codes = .pass codes) := by
  intro blank filled formed checked
  have classed : codes.all (classCell e.cls) = false ↔ ¬formed := by
    rw [← Bool.not_eq_true, List.all_eq_true]
    exact not_congr (forall₂_congr fun b _ => cell b)
  have digit : checkDigitHolds e.check e.cls codes = false ↔ ¬checked := by
    rw [← Bool.not_eq_true]
    refine not_congr ⟨.inr, fun holds => holds.elim (fun none_ => ?_) id⟩
    rw [none_, checkDigitHolds]
  have stages : ¬blank → _ := fun solid => exitCheck_of_class (e := e) (length := length) (isEmptyRun_eq_false solid) cls
  refine ⟨fun unformed => ?_, fun formed_ solid unchecked => ?_, fun formed_ solid checked_ unfilled => ?_,
    fun formed_ checked_ filled_ => ?_⟩
  · rw [stages fun empty => unformed fun b m => (empty b m).imp_right .inl, if_pos (classed.2 unformed)]
  · rw [stages solid, if_neg (mt classed.1 (not_not_intro formed_)), if_pos (digit.2 unchecked)]
  · rw [stages solid, if_neg (mt classed.1 (not_not_intro formed_)), if_neg (mt digit.1 (not_not_intro checked_)),
      if_pos (not_filled_iff.1 unfilled)]
  · by_cases empty : blank
    · exact exitCheck_of_empty (isEmptyRun_iff.2 empty)
    · rw [stages empty, if_neg (mt classed.1 (not_not_intro formed_)), if_neg (mt digit.1 (not_not_intro checked_)),
        if_neg fun unfilled => not_filled_iff.2 unfilled filled_]

/-- R71, R73 to R77: the outcomes in an AMOUNT field whose codes read as an amount. -/
theorem AmountParsed.Of.exitCheck_outcomes {a : AmountParsed} (of : a.Of e.signed codes) (cls : e.cls = .amount)
    (check : e.check = .noCheck) (solid : ¬∀ b ∈ codes, b = 0x00#8 ∨ b = 0x20#8) :
    let filled := e.mustFill = false ∨ 0x00#8 ∉ codes
    let magnitude := a.magnitude e.scale
    let sign : List Byte := if a.negative = true ∧ magnitude ≠ 0 then [0x2D#8] else []
    let text := magnitudeText magnitude e.scale
    let room := length - (sign.length + text.length)
    let inRange := (e.bound = 0 ∨ magnitude ≤ e.bound) ∧ sign.length + text.length ≤ length
    (e.scale < a.fraction.length → exitCheck e length codes = .fail .eScale) ∧
      (a.fraction.length ≤ e.scale → ¬inRange → exitCheck e length codes = .fail .eRange) ∧
      (a.fraction.length ≤ e.scale → inRange → ¬filled → exitCheck e length codes = .fail .eFill) ∧
      (a.fraction.length ≤ e.scale → inRange → filled → exitCheck e length codes = .pass
        (if e.zeroFill then sign ++ List.replicate room 0x30#8 ++ text
        else List.replicate room 0x20#8 ++ sign ++ text)) := by
  intro filled magnitude sign text room inRange
  have notEmpty := isEmptyRun_eq_false solid
  have stages : amountCheck e length codes = if e.scale < a.fraction.length then .fail .eScale
      else if ¬inRange then .fail .eRange
      else .pass (if e.zeroFill then sign ++ List.replicate room 0x30#8 ++ text
        else List.replicate room 0x20#8 ++ sign ++ text) := of.amountCheck_eq
  refine ⟨fun long => ?_, fun short beyond => ?_, fun short within unfilled => ?_, fun short within filled_ => ?_⟩
  · exact exitCheck_of_amount_fail notEmpty cls (by rw [stages, if_pos long])
  · exact exitCheck_of_amount_fail notEmpty cls (by rw [stages, if_neg (Nat.not_lt.2 short), if_pos beyond])
  · rw [exitCheck_of_amount_pass notEmpty cls check
      (stages.trans (by rw [if_neg (Nat.not_lt.2 short), if_neg (not_not_intro within)])),
      if_pos (not_filled_iff.1 unfilled)]
  · rw [exitCheck_of_amount_pass notEmpty cls check
      (stages.trans (by rw [if_neg (Nat.not_lt.2 short), if_neg (not_not_intro within)])),
      if_neg fun unfilled => not_filled_iff.2 unfilled filled_]

end outcomes

/-- Settles O45: the key is a move, the move out of the touched field is its exit, and the outcomes of the exit check are
those of the field's class. -/
theorem exitChecksTheTouchedField : Obligations.ExitChecksTheTouchedField := by
  intro s p f e c d editing law wf at_ entry touched goes outside g codes
  refine ⟨⟨_, exec_cursorKey editing law goes, ?_⟩, fun blank => exitCheck_of_empty (isEmptyRun_iff.2 blank),
    fun admitted of => ?_, fun cls check solid => ⟨fun none_ => ?_, fun a of => of.exitCheck_outcomes cls check solid⟩⟩
  · exact State.exitTo_moveCursor (State.editing_setPage editing rfl rfl) (Page.fieldLaw_unnoticed law) wf rfl at_ entry
      touched outside
  · refine exitCheck_class_outcomes (fun amount => ?_) (classCell_iff of)
    obtain ⟨cls, -⟩ | ⟨cls, -⟩ | ⟨cls, -⟩ := of <;> cases amount.symm.trans cls
  · exact exitCheck_of_amount_fail (isEmptyRun_eq_false solid) cls (amountCheck_of_none none_)

end Sys2Proof.Machine


/-! # Cursor keys out of no touched field

The four arrow keys and the four field keys, by a move that runs no exit check (R47 to R53). -/

namespace Sys2Proof.Machine

section moves

variable {s : State} {p : PageNum} {g : Page} {c : Instr} {d : Nat}

/-- R51 to R53: a move that runs no exit check takes the cursor to its place, which is entered. -/
theorem State.moveCursor_of_movesUnchecked (unchecked : g.movesUnchecked d) :
    ∃ fields chains current, g.entersTo d fields chains current ∧
      (s.setPage p g).moveCursor p d false =
        s.setPage p { g with cursor := d, fields := fields, chains := chains, current := current } := by
  obtain ⟨fields, chains, current, enters, arrived⟩ := g.arrive_entersTo d
  refine ⟨fields, chains, current, enters, ?_⟩
  have moved : (s.setPage p g).moveCursor p d false = (s.setPage p g).setPage p (((s.setPage p g).page p).arrive d) := by
    refine State.moveCursor_untouched fun f at_ outside => ?_
    rw [State.page_setPage_self] at at_
    obtain untouched | ⟨lower, upper⟩ := unchecked f at_
    · exact untouched
    · simp [Field.holds, lower, upper] at outside
  rw [moved, State.page_setPage_self, State.setPage_setPage, arrived]

/-- R47: an arrow key is a move to its place, whatever the fields of the page. -/
theorem exec_arrowKey (editing : s.editing p) (goes : (s.page p).ArrowGoesTo c d) :
    exec c s = .next ((s.setPage p (s.page p).unnoticed).moveCursor p d false) := by
  have cursor : ((s.setPage p (s.page p).unnoticed).page p).cursor = (s.page p).cursor := by
    rw [State.page_setPage_self]; rfl
  obtain ⟨rfl, goes⟩ | ⟨rfl, goes⟩ | ⟨rfl, goes⟩ | ⟨rfl, goes⟩ := goes <;> rw [goes, ← cursor]
  · exact exec_key (b := 0x80#8) editing rfl (by decide)
  · exact exec_key (b := 0x81#8) editing rfl (by decide)
  · exact exec_key (b := 0x82#8) editing rfl (by decide)
  · exact exec_key (b := 0x83#8) editing rfl (by decide)

/-- R45, R51 to R53: what a key that is an unchecked move makes of the state. -/
theorem exec_movesUnchecked (move : exec c s = .next ((s.setPage p (s.page p).unnoticed).moveCursor p d false))
    (unchecked : (s.page p).movesUnchecked d) :
    ∃ fields chains current, (s.page p).entersTo d fields chains current ∧
      exec c s = .next (s.setPage p
        { s.page p with cursor := d, fields := fields, chains := chains, current := current, notice := none }) := by
  obtain ⟨fields, chains, current, enters, moved⟩ :=
    State.moveCursor_of_movesUnchecked (s := s) (p := p) (g := (s.page p).unnoticed) unchecked
  exact ⟨fields, chains, current, enters, move.trans (congrArg Host.Outcome.next moved)⟩

end moves

/-- Settles O43: an arrow key is a move to its place, and a move that runs no check enters there. -/
theorem arrowKeysMoveTheCursor : Obligations.ArrowKeysMoveTheCursor :=
  fun _ _ _ _ editing _ goes unchecked => exec_movesUnchecked (exec_arrowKey editing goes) unchecked

/-- Settles O44: on a page that keeps the law of fields each field key is a move to its place. -/
theorem fieldKeysMoveTheCursor : Obligations.FieldKeysMoveTheCursor :=
  fun _ _ _ _ editing law goes unchecked => exec_movesUnchecked (exec_cursorKey editing law (.inr goes)) unchecked

end Sys2Proof.Machine


/-! # Typing

The character key (R56 to R59): what is refused, what is written along the continuation group, and the move after it. -/

namespace Sys2Proof.Machine

/-! ## The typing filter -/

section filter

variable {e : EntryItems} {b c : Byte}

/-- R29: the characters of a CODE field, small letters folded. -/
theorem admittedCode_code_iff {signed : Bool} : admittedCode .code signed b = some c ↔
    0x61 ≤ b.toNat ∧ b.toNat ≤ 0x7A ∧ c = b - 0x20#8 ∨
      (0x30 ≤ b.toNat ∧ b.toNat ≤ 0x39 ∨ 0x41 ≤ b.toNat ∧ b.toNat ≤ 0x5A ∨ b = 0x2D#8) ∧ c = b := by
  have plain : (isDigit b || isCapital b || b == 0x2D#8) = true ↔
      0x30 ≤ b.toNat ∧ b.toNat ≤ 0x39 ∨ 0x41 ≤ b.toNat ∧ b.toNat ≤ 0x5A ∨ b = 0x2D#8 := by
    simp [isDigit, isCapital, or_assoc]
  have small : isSmall b = true ↔ 0x61 ≤ b.toNat ∧ b.toNat ≤ 0x7A := by simp [isSmall]
  have apart : isSmall b = true → ¬(isDigit b || isCapital b || b == 0x2D#8) = true := by
    rw [plain, small]; bv_omega
  rw [← plain, ← and_assoc, ← small]
  simp only [admittedCode]
  split
  case isTrue unfolded => simp [unfolded, mt apart (not_not_intro unfolded), eq_comm]
  case isFalse folded =>
    split
    case isTrue letter => simp [folded, letter, eq_comm]
    case isFalse refused => simp [folded, refused]

/-- R29, R56: the model's filter admits what the class admits, and folds it so. -/
theorem admittedCode_eq_some_iff : admittedCode e.cls e.signed b = some c ↔ e.Admits b c := by
  unfold EntryItems.Admits
  cases cls : e.cls with
  | alpha => simp [admittedCode, printable, and_assoc, eq_comm (a := b) (b := c)]
  | code => simp [admittedCode_code_iff]
  | digits => simp [admittedCode, isDigit, and_assoc, eq_comm (a := b) (b := c)]
  | amount => simp [admittedCode, isDigit, and_assoc, or_and_right, or_assoc, eq_comm (a := b) (b := c)]

/-- R56: the class refuses the character. -/
theorem admittedCode_eq_none (refused : ∀ c, ¬e.Admits b c) : admittedCode e.cls e.signed b = none :=
  Option.eq_none_iff_forall_ne_some.2 fun c admitted => refused c (admittedCode_eq_some_iff.1 admitted)

/-- R29, R56: every class admits printable characters only. -/
theorem EntryItems.Admits.text (admits : e.Admits b c) : 0x20 ≤ b.toNat ∧ b.toNat ≤ 0x7E := by
  obtain ⟨-, lower, upper, -⟩ | ⟨-, lower, upper, -⟩ | ⟨-, plain, -⟩ | ⟨-, lower, upper, -⟩ | ⟨-, mark, -⟩ := admits
  · exact ⟨lower, upper⟩
  · omega
  · bv_omega
  · omega
  · bv_omega

end filter

/-! ## What a character key does, branch by branch -/

section branches

variable {s : State} {p : PageNum} {g : Page} {f : Field} {e : EntryItems} {b c : Byte}

/-- R44: a printable code is a character key's. -/
theorem keyOfByte_of_text (text : 0x20 ≤ b.toNat ∧ b.toNat ≤ 0x7E) : b ≠ 0x1D#8 ∧ keyOfByte b = .character b :=
  ⟨by rintro rfl; exact absurd text (by decide), if_pos (printable_iff.2 text)⟩

theorem exec_characterKey (editing : s.editing p) (text : 0x20 ≤ b.toNat ∧ b.toNat ≤ 0x7E) :
    exec (.characterKey b) s = .next ((s.setPage p (s.page p).unnoticed).typeCharacter p b) := by
  obtain ⟨marker, key⟩ := keyOfByte_of_text text
  rw [exec_key editing rfl marker, key]
  rfl

/-- R56, R60 to R63: the keys that act on an entry field, where the cursor is in none. -/
theorem State.actKey_outside (outside : g.entryAt g.cursor = none) {k : Key}
    (acts : k = .delete ∨ k = .backspace ∨ k = .eraseEof ∨ k = .clearField ∨ ∃ b, k = .character b) :
    (s.setPage p g).actKey p k = (s.setPage p g).enterHold p .eProt := by
  obtain rfl | rfl | rfl | rfl | ⟨b, rfl⟩ := acts
  · simp only [State.actKey, State.deleteKey, State.page_setPage_self, outside]
  · simp only [State.actKey, State.backspaceKey, State.page_setPage_self, outside]
  · simp only [State.actKey, State.eraseEofKey, State.page_setPage_self, outside]
  · simp only [State.actKey, State.clearFieldKey, State.page_setPage_self, outside]
  · simp only [State.actKey, State.typeCharacter, State.page_setPage_self, outside]

/-- R56, R60 to R63: such a key, as the command that delivers it. -/
theorem exec_key_outside {c : Instr} {k : Key} (editing : s.editing p)
    (outside : (s.page p).entryAt (s.page p).cursor = none) (code : keyCode c = some b) (other : b ≠ 0x1D#8)
    (key : keyOfByte b = k)
    (acts : k = .delete ∨ k = .backspace ∨ k = .eraseEof ∨ k = .clearField ∨ ∃ b, k = .character b) :
    exec c s = .next ((s.setPage p (s.page p).unnoticed).enterHold p .eProt) := by
  rw [exec_key editing code other, key, State.actKey_outside (g := (s.page p).unnoticed) outside acts]

/-- R65: the hold that a refused key leaves, on the page whose notice the key has cleared. -/
theorem State.enterHold_unnoticed (s : State) (p : PageNum) (code : ErrorCode) :
    (s.setPage p (s.page p).unnoticed).enterHold p code =
      { s.setPage p ((s.page p).held code) with keys := { s.keys with queue := [] } } := by
  rw [State.enterHold_eq, State.page_setPage_self, State.setPage_setPage]
  rfl

section inside

variable (at_ : g.entryAt g.cursor = some f) (entry : f.entry = some e)

include at_ entry

/-- R56: a field that only scans fill. -/
theorem State.typeCharacter_of_scan (source : e.source = .scan) :
    (s.setPage p g).typeCharacter p b = (s.setPage p g).enterHold p .eSrc := by
  simp only [State.typeCharacter, State.page_setPage_self, at_, entry, Option.any_some, source, decide_true, if_true]

variable (source : e.source ≠ .scan)

include source

/-- R56: a character that the class refuses. -/
theorem State.typeCharacter_of_refused (refused : ∀ c, ¬e.Admits b c) :
    (s.setPage p g).typeCharacter p b = (s.setPage p g).enterHold p .eClass := by
  simp only [State.typeCharacter, State.page_setPage_self, at_, entry, Option.any_some, source, decide_false,
    Bool.false_eq_true, if_false, Option.bind_some, admittedCode_eq_none refused]

variable (admits : e.Admits b c)

include admits

/-- R57: an insert that finds no null at the end of the group. -/
theorem State.typeCharacter_of_full (insert : g.insert = true)
    (full : g.insertWrites (g.group f) g.cursor c = none) :
    (s.setPage p g).typeCharacter p b = (s.setPage p g).enterHold p .eOver := by
  simp only [State.typeCharacter, State.page_setPage_self, at_, entry, Option.any_some, source, decide_false,
    Bool.false_eq_true, if_false, Option.bind_some, admittedCode_eq_some_iff.2 admits, insert, if_true, full]

/-- R57 to R59: a character that is written. -/
theorem State.typeCharacter_of_writes {writes : List (Nat × Byte)}
    (written : (if g.insert then g.insertWrites (g.group f) g.cursor c else some [(g.cursor, c)]) = some writes) :
    (s.setPage p g).typeCharacter p b =
      (s.setPage p (g.editAction (g.group f) [f.number] f.number writes)).advance p f := by
  simp only [State.typeCharacter, State.page_setPage_self, at_, entry, Option.any_some, source, decide_false,
    Bool.false_eq_true, if_false, Option.bind_some, admittedCode_eq_some_iff.2 admits, written, State.setPage_setPage]

end inside

end branches

/-! ## The writes of a character -/

section writes

variable {g : Page} {fs : List Field} {c : Byte} {k a z : Nat}

/-- R57: the cells with a character written at place k of the group's sequence, in insert mode with the codes from there on
moved one place along. -/
def Page.Typed (g : Page) (fs : List Field) (k : Nat) (c : Byte) (cells : Cells) : Prop :=
  cells.wf ∧ (∀ a, a ∉ groupCells fs → cells.read a = g.cells.read a) ∧
    ∀ i a, (groupCells fs)[i]? = some a → cells.read a =
      if i = k then c
      else if g.insert = true ∧ k < i then g.cells.read ((groupCells fs).getD (i - 1) 0)
      else g.cells.read a

/-- R57: an insert is refused when the last cell of the group is not null. -/
theorem Page.IsGroup.insertWrites_eq (law : g.FieldLaw) (grp : g.IsGroup fs) (place : (groupCells fs)[k]? = some a)
    (last : (groupCells fs).getLast? = some z) : g.insertWrites fs a c =
      if g.cells.read z = 0x00#8 then
        some (((groupCells fs).drop k).zip (c :: (((groupCells fs).drop k).map g.cells.read).dropLast))
      else none := by
  have below := (List.getElem?_eq_some_iff.1 place).1
  have code : (((groupCells fs).drop k).map g.cells.read).getLast? = some (g.cells.read z) := by
    rw [List.getLast?_map, List.getLast?_drop, if_neg (by omega), last, Option.map_some]
  simp only [Page.insertWrites, dropWhile_eq_drop (grp.nodup_cells law) place, code, Option.some.injEq]

/-- R57: the writes of an insert move the sequence from the cursor on one place along. -/
theorem Page.IsGroup.typed_insert (law : g.FieldLaw) (grp : g.IsGroup fs) (wf : g.cells.wf) (insert : g.insert = true) :
    g.Typed fs k c (g.cells.writeAll
      (((groupCells fs).drop k).zip (c :: (((groupCells fs).drop k).map g.cells.read).dropLast))) := by
  obtain ⟨outside, reads⟩ := grp.read_writeAll law wf (k := k)
    (codes := c :: (((groupCells fs).drop k).map g.cells.read).dropLast)
    (out := fun i => if i = k then c else g.cells.read ((groupCells fs).getD (i - 1) 0)) fun i from_ below => by
      obtain rfl | ⟨j, rfl⟩ : i = k ∨ ∃ j, i = k + (j + 1) :=
        (Nat.eq_or_lt_of_le from_).imp Eq.symm fun h => ⟨i - k - 1, by omega⟩
      · simp
      · have before : k + j < (groupCells fs).length := by omega
        rw [Nat.add_sub_cancel_left, List.getElem?_cons_succ, List.getElem?_dropLast, if_pos (by simp; omega),
          List.getElem?_map, List.getElem?_drop, if_neg (by omega), show k + (j + 1) - 1 = k + j by omega,
          List.getElem?_eq_getElem before, List.getD_eq_getElem _ _ before]
        rfl
  refine ⟨Cells.wf_writeAll _ wf, outside, fun i a at_ => (reads i a at_).trans ?_⟩
  obtain before | rfl | behind := Nat.lt_trichotomy i k
  · rw [if_pos before, if_neg (by omega), if_neg (by omega)]
  · simp
  · rw [if_neg (by omega), if_neg (by omega), if_neg (by omega), if_pos ⟨insert, behind⟩]

/-- R57: an overwrite changes the cell at the cursor alone. -/
theorem Page.IsGroup.typed_overwrite (law : g.FieldLaw) (grp : g.IsGroup fs) (wf : g.cells.wf) (insert : g.insert = false)
    (place : (groupCells fs)[k]? = some a) : g.Typed fs k c (g.cells.writeAll [(a, c)]) := by
  have inside := List.mem_of_getElem? place
  have read (x : Nat) : (g.cells.writeAll [(a, c)]).read x = if x = a then c else g.cells.read x :=
    Cells.read_write a c wf (grp.cells_below law a inside) x
  refine ⟨Cells.wf_writeAll _ wf, fun x outside => ?_, fun i x at_ => ?_⟩
  · rw [read, if_neg (by rintro rfl; exact outside inside)]
  · have same : x = a ↔ i = k := by
      refine ⟨fun e => ?_, fun e => ?_⟩
      · exact (List.getElem?_inj (List.getElem?_eq_some_iff.1 at_).1 (grp.nodup_cells law)).1
          (at_.trans ((congrArg some e).trans place.symm))
      · exact Option.some.inj (at_.symm.trans ((congrArg _ e).trans place))
    simp only [read, same, insert, Bool.false_eq_true, false_and, if_false]

/-- R57: where the character goes and the group has room for it, its writes are those of its mode. -/
theorem Page.IsGroup.exists_typed (law : g.FieldLaw) (grp : g.IsGroup fs) (wf : g.cells.wf)
    (place : (groupCells fs)[k]? = some a)
    (room : g.insert = true → ∀ z, (groupCells fs).getLast? = some z → g.cells.read z = 0x00#8) :
    ∃ writes, (if g.insert then g.insertWrites fs a c else some [(a, c)]) = some writes ∧
      g.Typed fs k c (g.cells.writeAll writes) := by
  cases insert : g.insert with
  | false => exact ⟨_, rfl, grp.typed_overwrite law wf insert place⟩
  | true =>
    have last := List.getLast?_eq_some_getLast (List.ne_nil_of_mem (List.mem_of_getElem? place))
    refine ⟨_, ?_, grp.typed_insert (k := k) law wf insert⟩
    rw [if_pos rfl, grp.insertWrites_eq law place last, if_pos (room insert _ last)]

end writes

/-- Settles O47: the first test of R56 and R57 that fails decides the code. -/
theorem refusedKeysEnterErrorHold : Obligations.RefusedKeysEnterErrorHold := by
  intro s p c code editing refusal
  rw [← State.enterHold_unnoticed]
  obtain ⟨outside, rfl, key⟩ | ⟨b, f, e, rfl, lower, upper, at_, entry, reason⟩ := refusal
  · obtain rfl | rfl | rfl | rfl | ⟨b, rfl, text⟩ := key
    · exact exec_key_outside (b := 0x89#8) editing outside rfl (by decide) rfl (.inl rfl)
    · exact exec_key_outside (b := 0x8A#8) editing outside rfl (by decide) rfl (.inr (.inl rfl))
    · exact exec_key_outside (b := 0x8B#8) editing outside rfl (by decide) rfl (.inr (.inr (.inl rfl)))
    · exact exec_key_outside (b := 0x8C#8) editing outside rfl (by decide) rfl (.inr (.inr (.inr (.inl rfl))))
    · obtain ⟨marker, key⟩ := keyOfByte_of_text text
      exact exec_key_outside editing outside rfl marker key (.inr (.inr (.inr (.inr ⟨b, rfl⟩))))
  · rw [exec_characterKey editing ⟨lower, upper⟩]
    refine congrArg Host.Outcome.next ?_
    obtain ⟨scan, rfl⟩ | ⟨source, cls, refused, rfl⟩ | ⟨source, cls, rfl, refused⟩ | ⟨source, cls, rfl, refused⟩ |
      ⟨source, ⟨x, admits⟩, insert, rfl, law, fs, z, grp, hf, last, full⟩ := reason
    · exact State.typeCharacter_of_scan at_ entry scan
    · refine State.typeCharacter_of_refused at_ entry source fun x admits => ?_
      simp only [EntryItems.Admits, cls, reduceCtorEq, false_and, false_or, true_and, or_false] at admits
      omega
    · refine State.typeCharacter_of_refused at_ entry source fun x admits => ?_
      simp only [EntryItems.Admits, cls, reduceCtorEq, false_and, false_or, true_and, or_false] at admits
      tauto
    · refine State.typeCharacter_of_refused at_ entry source fun x admits => ?_
      simp only [EntryItems.Admits, cls, reduceCtorEq, false_and, false_or, true_and, or_true] at admits
      tauto
    · have law' : (s.page p).unnoticed.FieldLaw := Page.fieldLaw_unnoticed law
      have grp' : (s.page p).unnoticed.IsGroup fs := ⟨grp.fields, grp.linked, grp.head, grp.last⟩
      obtain ⟨-, -, start, finish⟩ := Page.holds_of_entryAt at_
      obtain ⟨k, place⟩ := List.mem_iff_getElem?.1 (mem_groupCells hf start finish)
      refine State.typeCharacter_of_full at_ entry source admits insert ?_
      rw [grp'.group_eq law' hf]
      exact (grp'.insertWrites_eq law' place last).trans (if_neg full)

end Sys2Proof.Machine

/-! ## The move after a character -/

namespace Sys2Proof.Machine

section advance

variable {s : State} {p : PageNum} {g : Page} {f h : Field} {e : EntryItems}

/-- R58: from any cell of its field but the last the cursor goes to the next, and no field is left or entered. -/
theorem State.advance_inside (law : g.FieldLaw) (at_ : g.entryAt g.cursor = some h) (before : g.cursor ≠ f.last)
    (upper : g.cursor + 1 < h.start + h.length) :
    (s.setPage p g).advance p f = s.setPage p { g with cursor := g.cursor + 1 } := by
  obtain ⟨-, -, lower, -⟩ := Page.holds_of_entryAt at_
  have lower' : h.start ≤ g.cursor + 1 := by omega
  have stays : ((s.setPage p g).page p).exitOf (g.cursor + 1) false = none := by
    rw [State.page_setPage_self]
    exact Page.exitOf_inside at_ lower' upper
  have move := State.moveCursor_of_exitOf stays
  rw [State.page_setPage_self, State.setPage_setPage, Page.arrive_inside law at_ lower' upper] at move
  simp only [State.advance, State.page_setPage_self, if_pos before, move]

/-- R51, R58: from its field's last cell the cursor enters the continuation target, and no exit is made. -/
theorem State.advance_linked (last : g.cursor = f.last) (link : f.continuation.bind g.fieldNumbered = some h) :
    ∃ fields chains current, g.entersTo h.start fields chains current ∧
      (s.setPage p g).advance p f =
        s.setPage p { g with cursor := h.start, fields := fields, chains := chains, current := current } := by
  obtain ⟨fields, chains, current, enters, arrived⟩ := g.arrive_entersTo h.start
  refine ⟨fields, chains, current, enters, ?_⟩
  have move := State.moveCursor_of_exitOf (s := s.setPage p g) (p := p) (position := h.start) (continuation := true) rfl
  rw [State.page_setPage_self, State.setPage_setPage, arrived] at move
  simp only [State.advance, State.page_setPage_self, last, ne_eq, not_true_eq_false, if_false, link, move]

/-- R58: from the last cell of a field without continuation target the move is TAB's or RIGHT's. -/
theorem State.advance_unlinked (editing : (s.setPage p g).editing p) (unnoticed : g.notice = none)
    (entry : f.entry = some e) (last : g.cursor = f.last) (unlinked : f.continuation = none) :
    exec (if e.autoSkip then .tab else .right) (s.setPage p g) = .next ((s.setPage p g).advance p f) := by
  have same : g.unnoticed = g := by rw [Page.unnoticed, ← unnoticed]
  have key {c : Instr} {b : Byte} (code : keyCode c = some b) (other : b ≠ 0x1D#8) :
      exec c (s.setPage p g) = .next ((s.setPage p g).actKey p (keyOfByte b)) := by
    rw [exec_key editing code other, State.page_setPage_self, State.setPage_setPage, same]
  have unlinked' : f.continuation.bind g.fieldNumbered = none := by rw [unlinked]; rfl
  have moves : (s.setPage p g).advance p f =
      (s.setPage p g).moveCursor p (if e.autoSkip then g.nextEntry g.cursor else nextPosition g.cursor) false := by
    simp only [State.advance, State.page_setPage_self, if_neg (not_not_intro last), unlinked', entry, Option.any_some]
    split <;> rfl
  rw [moves]
  cases e.autoSkip with
  | true =>
    refine (key (b := 0x84#8) rfl (by decide)).trans ?_
    simp only [show keyOfByte 0x84#8 = .tab from rfl, State.actKey, State.page_setPage_self, if_true]
  | false =>
    refine (key (b := 0x81#8) rfl (by decide)).trans ?_
    simp only [show keyOfByte 0x81#8 = .right from rfl, State.actKey, State.page_setPage_self, nextPosition,
      Bool.false_eq_true, if_false]

end advance

/-! ## The page that a character leaves -/

section written

variable {s : State} {p : PageNum} {g : Page} {fs : List Field} {f h : Field} {e : EntryItems} {b c : Byte} {k n a : Nat}
  {cells : Cells}

/-- R59: the page after a key has acted in field n of a group and left these cells, the cursor still in its place. -/
def Page.actedIn (g : Page) (fs : List Field) (n : Nat) (cells : Cells) : Page :=
  { g with cells := cells, fields := g.editedGroup fs n cells }

theorem Page.editAction_eq (g : Page) (fs : List Field) (n : Nat) (writes : List (Nat × Byte)) :
    g.editAction fs [n] n writes = g.actedIn fs n (g.cells.writeAll writes) := by
  rw [Page.actedIn, ← Page.editedGroup_eq]
  rfl

/-- R59: an edit changes marks of fields, and nothing that defines them. -/
theorem Page.actedIn_fields (g : Page) (fs : List Field) (n : Nat) (cells : Cells) :
    ∃ marked : Field → Field, (∀ f, (marked f).definition = f.definition) ∧
      (g.actedIn fs n cells).fields = g.fields.map marked :=
  ⟨_, fun f => f.definition_afterEdit _ _ _ _ _, Page.editedGroup_eq.symm⟩

theorem Page.fieldLaw_actedIn (law : g.FieldLaw) : (g.actedIn fs n cells).FieldLaw := by
  obtain ⟨marked, same, fields⟩ := g.actedIn_fields fs n cells
  have tended : g.Tended (g.actedIn fs n cells) := .of_same (by simp [fields, same]) rfl rfl rfl
  exact tended.fieldLaw law

/-- R32, R59: after an edit the same ENTRY field holds the cell, its marks aside. -/
theorem Page.entryAt_actedIn (law : g.FieldLaw) (at_ : g.entryAt a = some f) :
    ∃ h, (g.actedIn fs n cells).entryAt a = some h ∧ h.start = f.start ∧ h.length = f.length := by
  obtain ⟨marked, same, fields⟩ := g.actedIn_fields fs n cells
  obtain ⟨hf, entry, lower, upper⟩ := Page.holds_of_entryAt at_
  have start : (marked f).start = f.start := Field.start_eq (same f)
  have length : (marked f).length = f.length := Field.length_eq (same f)
  have entry' : (marked f).entry.isSome = true := by
    rw [← Field.definition_isSome_entry, same, Field.definition_isSome_entry, entry]
  have there : marked f ∈ (g.actedIn fs n cells).fields := fields ▸ List.mem_map_of_mem hf
  exact ⟨marked f, (Page.fieldLaw_actedIn law).entryAt there entry' (by omega) (by omega), start, length⟩

/-- R26, R59: after an edit a field is found by its number where it stood. -/
theorem Page.fieldNumbered_actedIn (law : g.FieldLaw) (hh : h ∈ g.fields) :
    ∃ x, (g.actedIn fs n cells).fieldNumbered h.number = some x ∧ x.start = h.start := by
  obtain ⟨marked, same, fields⟩ := g.actedIn_fields fs n cells
  have there : marked h ∈ (g.actedIn fs n cells).fields := fields ▸ List.mem_map_of_mem hh
  exact ⟨marked h, (Page.fieldLaw_actedIn law).fieldNumbered there (Field.number_eq (same h)), Field.start_eq (same h)⟩

/-- R56 to R59: an admitted character is written along the group, and the cursor moves on. -/
theorem State.typeCharacter_eq (law : g.FieldLaw) (wf : g.cells.wf) (grp : g.IsGroup fs) (hf : f ∈ fs)
    (at_ : g.entryAt g.cursor = some f) (entry : f.entry = some e) (source : e.source ≠ .scan) (admits : e.Admits b c)
    (place : (groupCells fs)[k]? = some g.cursor)
    (room : g.insert = true → ∀ a, (groupCells fs).getLast? = some a → g.cells.read a = 0x00#8) :
    ∃ cells : Cells, g.Typed fs k c cells ∧
      (s.setPage p g).typeCharacter p b = (s.setPage p (g.actedIn fs f.number cells)).advance p f := by
  obtain ⟨writes, written, typed⟩ := grp.exists_typed law wf place room
  refine ⟨_, typed, ?_⟩
  have group := grp.group_eq law hf
  rw [State.typeCharacter_of_writes at_ entry source admits (by rw [group]; exact written), group, Page.editAction_eq]

end written

/-- Settles O46: the character is written along the group, and its move is that of the cell it stands in. -/
theorem characterKeyWrites : Obligations.CharacterKeyWrites := by
  intro s p fs f e b c k editing law wf grp hf at_ entry source admits g seq place room
  have law' : g.unnoticed.FieldLaw := Page.fieldLaw_unnoticed law
  have grp' : g.unnoticed.IsGroup fs := ⟨grp.fields, grp.linked, grp.head, grp.last⟩
  obtain ⟨cells, ⟨wf', outside, reads⟩, typed⟩ :=
    State.typeCharacter_eq (s := s) (p := p) law' wf grp' hf at_ entry source admits place room
  refine ⟨cells, wf', outside, reads, ?_⟩
  intro written
  have exec_eq : exec (.characterKey b) s = .next ((s.setPage p written).advance p f) :=
    (exec_characterKey editing admits.text).trans (congrArg Host.Outcome.next typed)
  rw [exec_eq]
  refine ⟨fun inside => ?_, fun end_ => ?_⟩
  · obtain ⟨h, at', start, length⟩ := Page.entryAt_actedIn (fs := fs) (n := f.number) (cells := cells) law' at_
    refine congrArg Host.Outcome.next (State.advance_inside (g := written) (Page.fieldLaw_actedIn law') at' ?_ ?_)
    · show g.cursor ≠ f.start + f.length - 1
      omega
    · show g.cursor + 1 < h.start + h.length
      omega
  · have last : g.cursor = f.last := by unfold Field.last; omega
    refine ⟨fun h hh link => ?_, fun unlinked => ?_⟩
    · obtain ⟨x, found, start⟩ :=
        Page.fieldNumbered_actedIn (fs := fs) (n := f.number) (cells := cells) law' (grp.fields h hh).1
      obtain ⟨fields, chains, current, enters, moved⟩ := State.advance_linked (s := s) (p := p) (g := written) (f := f)
        (h := x) last (by rw [link]; exact found)
      rw [start] at enters moved
      exact ⟨fields, chains, current, enters, congrArg Host.Outcome.next moved⟩
    · exact (State.advance_unlinked (g := written) (State.editing_setPage editing rfl rfl) rfl entry last unlinked).symm

end Sys2Proof.Machine


/-! # Check digits

The check-digit tests on a run of data digits and its check character (R78 to R80). -/

namespace Sys2Proof.Machine

section checkDigits

variable {cls : FieldClass} {data : List Byte} {k : Byte} {n : Nat}

/-! ## The weighted sum -/

/-- R79, R80: the weights go from the rightmost data digit to the left. -/
theorem weightedSum_reverse {weights : List Nat} {weight : Nat → Nat}
    (listed : ∀ i, weights.getD (i % weights.length) 0 = weight i) (data : List Byte) :
    weightedSum weights data.reverse =
      ((List.range data.length).map fun i => digitValue (data.getD (data.length - 1 - i) 0x30#8) * weight i).sum := by
  unfold weightedSum
  congr 1
  refine List.ext_getElem (by simp) fun i _ within => ?_
  have inside : data.length - 1 - i < data.length := by simp at within; omega
  simp [← listed, List.getElem?_eq_getElem inside]

/-- R79: the weights of M10. -/
theorem weightsM10_getD (i : Nat) : [3, 1].getD (i % 2) 0 = if i % 2 = 0 then 3 else 1 := by
  obtain even | odd := Nat.mod_two_eq_zero_or_one i
  · rw [even]; rfl
  · rw [odd]; rfl

/-- R80: the weights of M11. -/
theorem weightsM11_getD (i : Nat) : [2, 3, 4, 5, 6, 7].getD (i % 6) 0 = i % 6 + 2 := by
  have all : ∀ j < 6, [2, 3, 4, 5, 6, 7].getD j 0 = j + 2 := by decide
  exact all _ (Nat.mod_lt _ (by decide))

/-! ## The check character -/

theorem toNat_digitByte (h : n < 10) : (digitByte n).toNat = 0x30 + n := by
  simp only [digitByte, byteOf, BitVec.toNat_ofNat]; omega

theorem digitByte_eq_iff (h : n < 10) : digitByte n = k ↔ isDigit k = true ∧ digitValue k = n := by
  rw [← BitVec.toNat_inj, toNat_digitByte h]
  simp only [isDigit, digitValue, Bool.and_eq_true, decide_eq_true_eq]
  omega

theorem digitValue_lt (digit : isDigit k = true) : digitValue k < 10 := by
  simp only [isDigit, digitValue, Bool.and_eq_true, decide_eq_true_eq] at digit ⊢
  omega

/-- R79, R80: the character of an expected check is its digit, or 'X' for 10 in a CODE field. -/
theorem checkCharacter_eq_some_iff (h : n ≤ 10) :
    checkCharacter cls n = some k ↔ isDigit k = true ∧ digitValue k = n ∨ cls = .code ∧ n = 10 ∧ k = 0x58#8 := by
  unfold checkCharacter
  by_cases digit : n < 10
  · have ne : n ≠ 10 := by omega
    simp [digit, ne, digitByte_eq_iff digit]
  · obtain rfl : n = 10 := by omega
    have none_ : ¬(isDigit k = true ∧ digitValue k = 10) := fun ⟨digit, ten⟩ => (digitValue_lt digit).ne ten
    simp [none_, eq_comm (a := k)]

/-! ## The test -/

/-- R78: data digits and a check character that is not blank are the whole check-digit string. -/
theorem trimmed_data_append (digits : AllDigits data) (solid : isBlank k = false) :
    trimmed (data ++ [k]) = data ++ [k] := by
  have entry : ∀ b ∈ data ++ [k], isBlank b = false := List.forall_mem_append.2
    ⟨fun b m => isBlank_eq_false_of_isDigit (allDigits_iff.1 digits b m), by simpa using solid⟩
  simpa using trimmed_append (lead := []) (trail := []) (by simp) entry (by simp)

/-- R78: both tests ask for data and for the expected check character behind it. -/
theorem checkDigitHolds_iff {check : CheckKind} {expected : Nat}
    (of : check = .m10 ∧ expected = expectedM10 data.reverse ∨ check = .m11 ∧ expected = expectedM11 data.reverse)
    (digits : AllDigits data) (solid : isBlank k = false) :
    checkDigitHolds check cls (data ++ [k]) = true ↔ data ≠ [] ∧ checkCharacter cls expected = some k := by
  have formed : data.reverse.all isDigit = true := by simpa using allDigits_iff.1 digits
  obtain ⟨rfl, rfl⟩ | ⟨rfl, rfl⟩ := of <;>
    simp [checkDigitHolds, trimmed_data_append digits solid, formed, -List.all_reverse]

/-- R79: M10 accepts the digit that makes the weighted sum a multiple of 10. -/
theorem checkCharacter_expectedM10_iff :
    checkCharacter cls (expectedM10 data) = some k ↔
      isDigit k = true ∧ (weightedSum [3, 1] data + digitValue k) % 10 = 0 := by
  have small : expectedM10 data < 10 := Nat.mod_lt _ (by decide)
  rw [checkCharacter_eq_some_iff small.le]
  unfold expectedM10 at small ⊢
  constructor
  · rintro (⟨digit, expected⟩ | ⟨-, ten, -⟩)
    · exact ⟨digit, by omega⟩
    · omega
  · rintro ⟨digit, multiple⟩
    have := digitValue_lt digit
    exact .inl ⟨digit, by omega⟩

/-- R80: M11 accepts the digit, or in a CODE field the 'X' for 10, that makes the weighted sum a multiple of 11. -/
theorem checkCharacter_expectedM11_iff :
    checkCharacter cls (expectedM11 data) = some k ↔
      isDigit k = true ∧ (weightedSum [2, 3, 4, 5, 6, 7] data + digitValue k) % 11 = 0 ∨
        cls = .code ∧ k = 0x58#8 ∧ (weightedSum [2, 3, 4, 5, 6, 7] data + 10) % 11 = 0 := by
  have small : expectedM11 data < 11 := Nat.mod_lt _ (by decide)
  rw [checkCharacter_eq_some_iff (Nat.le_of_lt_succ small)]
  unfold expectedM11
  refine or_congr (and_congr_right fun digit => ?_) (and_congr_right fun _ => ?_)
  · have := digitValue_lt digit
    omega
  · rw [and_comm]
    exact and_congr_right fun _ => by omega

/-- R78: a check character alone is too short. -/
theorem checkDigitHolds_singleton {check : CheckKind} (kind : check ≠ .noCheck) (solid : isBlank k = false) :
    checkDigitHolds check cls [k] = false := by
  have string : trimmed [k] = [k] := trimmed_data_append (data := []) (by simp [AllDigits]) solid
  cases check with
  | noCheck => exact absurd rfl kind
  | m10 => simp [checkDigitHolds, string]
  | m11 => simp [checkDigitHolds, string]

end checkDigits

/-- Settles O59: the run is the whole check-digit string, and the expected check character is the one that makes the weighted
sum a multiple of the modulus. -/
theorem checkDigitTests : Obligations.CheckDigitTests := by
  intro data k present digits notNull notSpace digit sum10 sum11 numeral
  have solid : isBlank k = false := by simp [isBlank, notNull, notSpace]
  have isNumeral : isDigit k = true ↔ numeral := by simp [isDigit, numeral]
  have sum10_eq : weightedSum [3, 1] data.reverse = sum10 := weightedSum_reverse weightsM10_getD data
  have sum11_eq : weightedSum [2, 3, 4, 5, 6, 7] data.reverse = sum11 := weightedSum_reverse weightsM11_getD data
  have m10 := checkDigitHolds_iff (cls := .digits) (.inl ⟨rfl, rfl⟩) digits solid
  have m11 (cls : FieldClass) := checkDigitHolds_iff (cls := cls) (.inr ⟨rfl, rfl⟩) digits solid
  rw [and_iff_right present, checkCharacter_expectedM10_iff, sum10_eq, isNumeral, digitValue] at m10
  simp only [and_iff_right present, checkCharacter_expectedM11_iff, sum11_eq, isNumeral, digitValue] at m11
  refine ⟨m10, ?_, ?_, checkDigitHolds_singleton (by decide) solid, checkDigitHolds_singleton (by decide) solid⟩
  · simpa using m11 .digits
  · simpa using m11 .code

end Sys2Proof.Machine


/-! # A normalised amount

A normalised amount reads as an amount of the same sign and magnitude, so its normal form is itself (R71, R74 to R77). -/

namespace Sys2Proof.Machine

/-! ## The value of decimal digits -/

theorem digitValue_digitByte {n : Nat} (h : n < 10) : digitValue (digitByte n) = n := by
  rw [digitValue, toNat_digitByte h, Nat.add_sub_cancel_left]

theorem decimalValue_append_singleton (digits : List Byte) (b : Byte) :
    decimalValue (digits ++ [b]) = decimalValue digits * 10 + digitValue b := by
  simp [decimalValue]

/-- R75: leading zeros carry no weight. -/
theorem decimalValue_replicate_zero_append (n : Nat) (digits : List Byte) :
    decimalValue (List.replicate n 0x30#8 ++ digits) = decimalValue digits := by
  induction n with
  | zero => rfl
  | succ n ih => exact ih

theorem decimalValue_decimalCodes (n : Nat) : decimalValue (decimalCodes n) = n := by
  induction n using Nat.strong_induction_on with
  | _ n ih =>
    obtain small | large := Nat.lt_or_ge n 10
    · rw [decimalCodes_of_lt small, ← List.nil_append [_], decimalValue_append_singleton, digitValue_digitByte small]
      simp [decimalValue]
    · rw [decimalCodes_of_le large, decimalValue_append_singleton, ih _ (by omega),
        digitValue_digitByte (Nat.mod_lt _ (by decide)), Nat.div_add_mod']

theorem decimalValue_append_paddedDecimal (digits : List Byte) (width n : Nat) (h : n < 10 ^ width) :
    decimalValue (digits ++ paddedDecimal width n) = decimalValue digits * 10 ^ width + n := by
  induction width generalizing n with
  | zero => obtain rfl : n = 0 := by omega
            simp [paddedDecimal]
  | succ width ih =>
    have split : 10 ^ (width + 1) = 10 ^ width * 10 := pow_succ 10 width
    rw [paddedDecimal, ← List.append_assoc, decimalValue_append_singleton, ih _ (by omega),
      digitValue_digitByte (Nat.mod_lt _ (by decide)), Nat.add_mul, Nat.add_assoc, Nat.div_add_mod', split, Nat.mul_assoc]

@[simp] theorem length_paddedDecimal (width n : Nat) : (paddedDecimal width n).length = width := by
  induction width generalizing n with
  | zero => rfl
  | succ width ih => simp [paddedDecimal, ih]

theorem allDigits_decimalCodes (n : Nat) : AllDigits (decimalCodes n) := by
  rw [← decimal_eq]
  exact allDigits_iff.2 (isDigit_decimalDigits _ _ [] (by simp))

theorem decimalCodes_ne_nil (n : Nat) : decimalCodes n ≠ [] := by
  obtain small | large := Nat.lt_or_ge n 10
  · simp [decimalCodes_of_lt small]
  · simp [decimalCodes_of_le large]

/-- R76: the text of a magnitude in the model's digits. -/
theorem magnitudeText_eq (magnitude scale : Nat) :
    magnitudeText magnitude scale = decimalCodes (magnitude / 10 ^ scale) ++
      if scale = 0 then [] else 0x2E#8 :: paddedDecimal scale (magnitude % 10 ^ scale) := by
  rw [← amountText_eq, amountText, decimal_eq]

/-! ## The normal form -/

namespace AmountParsed

variable {a : AmountParsed} {e : EntryItems} {length scale : Nat} {codes out : List Byte}

/-- R77: the cells left beside the sign and the text of an amount. -/
def room (a : AmountParsed) (scale length : Nat) : Nat :=
  length - ((a.signText scale).length + (magnitudeText (a.magnitude scale) scale).length)

/-- R77: the normal form of an amount. -/
def normalForm (a : AmountParsed) (zeroFill : Bool) (scale length : Nat) : List Byte :=
  if zeroFill then
    a.signText scale ++ List.replicate (a.room scale length) 0x30#8 ++ magnitudeText (a.magnitude scale) scale
  else List.replicate (a.room scale length) 0x20#8 ++ a.signText scale ++ magnitudeText (a.magnitude scale) scale

/-- The parts of the normal form as R74 reads it again: zeros that fill are leading digits, spaces are blanks. -/
def normalised (a : AmountParsed) (zeroFill : Bool) (scale length : Nat) : AmountParsed where
  lead := if zeroFill then [] else List.replicate (a.room scale length) 0x20#8
  negative := decide (a.negative = true ∧ a.magnitude scale ≠ 0)
  whole := (if zeroFill then List.replicate (a.room scale length) 0x30#8 else []) ++
    decimalCodes (a.magnitude scale / 10 ^ scale)
  point := decide (scale ≠ 0)
  fraction := paddedDecimal scale (a.magnitude scale % 10 ^ scale)
  trail := []

/-- R76, R77: an amount passes its stages with its normal form when it keeps to the scale, the bound and the length. -/
theorem Of.amountCheck_eq_pass_iff (of : a.Of e.signed codes) :
    amountCheck e length codes = .pass out ↔
      a.fraction.length ≤ e.scale ∧ (e.bound = 0 ∨ a.magnitude e.scale ≤ e.bound) ∧
        (a.signText e.scale).length + (magnitudeText (a.magnitude e.scale) e.scale).length ≤ length ∧
        a.normalForm e.zeroFill e.scale length = out := by
  rw [of.amountCheck_eq]
  constructor
  · intro passed
    obtain ⟨short, rest⟩ := CheckResult.pass_of_stage passed
    obtain ⟨within, pass⟩ := CheckResult.pass_of_stage rest
    obtain ⟨bounded, fits⟩ := not_not.1 within
    exact ⟨Nat.not_lt.1 short, bounded, fits, CheckResult.pass.inj pass⟩
  · rintro ⟨short, bounded, fits, form⟩
    rw [if_neg (Nat.not_lt.2 short), if_neg (not_not_intro ⟨bounded, fits⟩)]
    exact congrArg CheckResult.pass form

/-- R75: the magnitude in the model's reading of digits. -/
theorem magnitude_eq (a : AmountParsed) (scale : Nat) :
    a.magnitude scale = decimalValue (a.whole ++ a.fraction) * 10 ^ (scale - a.fraction.length) := rfl

/-- R71: the digits of the normal form are those of the magnitude, its zeros in front carrying no weight. -/
theorem decimalValue_normalised (zeroFill : Bool) :
    decimalValue ((a.normalised zeroFill scale length).whole ++ (a.normalised zeroFill scale length).fraction) =
      a.magnitude scale := by
  have low : a.magnitude scale % 10 ^ scale < 10 ^ scale := Nat.mod_lt _ (Nat.pow_pos (by decide))
  have whole : decimalValue (a.normalised zeroFill scale length).whole = a.magnitude scale / 10 ^ scale := by
    cases zeroFill
    · exact decimalValue_decimalCodes _
    · exact (decimalValue_replicate_zero_append _ _).trans (decimalValue_decimalCodes _)
  exact (decimalValue_append_paddedDecimal _ _ _ low).trans (by rw [whole, Nat.div_add_mod'])

/-- R71: the normal form has the magnitude of the amount. -/
@[simp] theorem magnitude_normalised (zeroFill : Bool) :
    (a.normalised zeroFill scale length).magnitude scale = a.magnitude scale := by
  rw [magnitude_eq (a.normalised zeroFill scale length), decimalValue_normalised]
  simp [normalised]

/-- R71, R75: the normal form has the sign of the amount, and none when the value is zero. -/
@[simp] theorem signText_normalised (zeroFill : Bool) :
    (a.normalised zeroFill scale length).signText scale = a.signText scale := by
  rw [signText, magnitude_normalised]
  simp [signText, normalised]

/-- R71: the normal form of the normal form is itself. -/
@[simp] theorem normalForm_normalised (zeroFill : Bool) :
    (a.normalised zeroFill scale length).normalForm zeroFill scale length = a.normalForm zeroFill scale length := by
  simp [normalForm, room]

/-- R71, R74: the normal form of an amount reads as its parts. -/
theorem Of.of_normalForm (of : a.Of e.signed codes) (zeroFill : Bool) :
    (a.normalised zeroFill scale length).Of e.signed (a.normalForm zeroFill scale length) where
  codes := by
    cases zeroFill <;> simp [AmountParsed.normalForm, normalised, magnitudeText_eq, signText]
  blanks b m := by
    cases zeroFill
    · exact .inr (List.eq_of_mem_replicate (by simpa [normalised] using m))
    · simp [normalised] at m
  digits := by
    refine ⟨allDigits_iff.2 (List.forall_mem_append.2 ⟨fun b m => ?_, allDigits_iff.1 (allDigits_decimalCodes _)⟩),
      allDigits_iff.2 (isDigit_paddedDecimal _ _)⟩
    cases zeroFill
    · simp at m
    · obtain rfl := List.eq_of_mem_replicate m
      decide
  present := by simp [normalised, decimalCodes_ne_nil]
  pointed integral := by
    obtain rfl : scale = 0 := by simpa [normalised] using integral
    rfl
  sign negative := of.sign (of_decide_eq_true negative).1

/-- R74: codes that read as an amount are not all blank. -/
theorem Of.isEmptyRun_eq_false {signed : Bool} (of : a.Of signed codes) : isEmptyRun codes = false := by
  obtain ⟨b, m⟩ := List.exists_mem_of_ne_nil _ of.entry_ne_nil
  have within : b ∈ codes := by
    rw [of.codes]
    simp only [entry, List.mem_append] at m ⊢
    exact .inl (m.imp_left fun front => front.imp_left .inr)
  exact List.all_eq_false.2 ⟨b, within, by simp [of.entry_not_blank b m]⟩

end AmountParsed

/-- R71: "A normalised amount normalises to itself". -/
theorem amountCheck_of_amountCheck {e : EntryItems} {length : Nat} {cells out : List Byte}
    (passed : amountCheck e length cells = .pass out) :
    amountCheck e length out = .pass out ∧ isEmptyRun out = false := by
  have form : ∃ a : AmountParsed, a.Of e.signed cells := by
    by_contra none_
    rw [amountCheck_of_none (not_exists.1 none_)] at passed
    cases passed
  obtain ⟨a, of⟩ := form
  obtain ⟨-, bounded, fits, rfl⟩ := of.amountCheck_eq_pass_iff.1 passed
  have again := of.of_normalForm (scale := e.scale) (length := length) e.zeroFill
  refine ⟨again.amountCheck_eq_pass_iff.2 ⟨?_, ?_⟩, again.isEmptyRun_eq_false⟩
  · simp [AmountParsed.normalised]
  · simpa using ⟨bounded, fits⟩

/-- R71: a field without check digit that is not empty passes with the cells of its AMOUNT stages. -/
theorem amountCheck_of_exitCheck {e : EntryItems} {length : Nat} {cells out : List Byte}
    (notEmpty : isEmptyRun cells = false) (cls : e.cls = .amount) (check : e.check = .noCheck)
    (passed : exitCheck e length cells = .pass out) : amountCheck e length cells = .pass out := by
  cases stages : amountCheck e length cells with
  | fail code =>
    rw [exitCheck_of_amount_fail notEmpty cls stages] at passed
    cases passed
  | pass standing =>
    rw [exitCheck_of_amount_pass notEmpty cls check stages] at passed
    exact (CheckResult.pass_of_stage passed).2

/-- Settles O60: an empty field stands as it is; the normal form of an amount has no null to fill and passes the AMOUNT
stages as itself. -/
theorem normalisedAmountStands : Obligations.NormalisedAmountStands := by
  intro e length cells out cls check passed
  cases empty : isEmptyRun cells with
  | true =>
    obtain rfl := CheckResult.pass.inj ((exitCheck_of_empty empty).symm.trans passed)
    exact ⟨passed, fun solid => Bool.noConfusion solid⟩
  | false =>
    have stages := amountCheck_of_exitCheck empty cls check passed
    have noNull : 0x00#8 ∉ out := fun null => absurd (printable_of_amountCheck stages _ null) (by decide)
    obtain ⟨again, notEmpty⟩ := amountCheck_of_amountCheck stages
    refine ⟨?_, fun _ => ⟨length_of_amountCheck stages, noNull⟩⟩
    rw [exitCheck_of_amount_pass notEmpty cls check again, if_neg fun unfilled => noNull unfilled.2]

end Sys2Proof.Machine

/-! # Keys with no page ACTIVE, in error hold, and during inhibit

Where a key goes is decided by the key it names, by the page and by inhibit (R90 to R94). -/

namespace Sys2Proof.Machine

/-! ## The keys that are told apart -/

section keys

variable {b : Byte}

/-- R44: one code is RESET. -/
theorem keyOfByte_eq_reset_iff : keyOfByte b = .reset ↔ b = 0x8D#8 := by
  refine ⟨fun h => BitVec.eq_of_toNat_eq ?_, by rintro rfl; rfl⟩
  unfold keyOfByte at h
  split at h
  · cases h
  · split at h
    · cases h
    · split at h
      case h_14 => assumption
      all_goals cases h

/-- R44: one code is ATTN. -/
theorem keyOfByte_eq_attn_iff : keyOfByte b = .attn ↔ b = 0x8F#8 := by
  refine ⟨fun h => BitVec.eq_of_toNat_eq ?_, by rintro rfl; rfl⟩
  unfold keyOfByte at h
  split at h
  · cases h
  · split at h
    · cases h
    · split at h
      case h_16 => assumption
      all_goals cases h

/-- R44: outside a frame the codes that name no key are those outside the key table. -/
theorem keyOfByte_eq_unknown_iff (marker : b ≠ 0x1D#8) : keyOfByte b = .unknown ↔ knownInputCode b = false := by
  refine ⟨fun h => ?_, fun h => (keyOfByte_of_unknown h).1⟩
  unfold keyOfByte at h
  split at h
  · cases h
  · split at h
    · cases h
    · split at h
      case h_18 =>
        have unprintable := mt printable_iff.2 ‹¬printable b = true›
        by_contra known
        simp only [knownInputCode, Bool.not_eq_false, Bool.or_eq_true, Bool.and_eq_true, decide_eq_true_eq, beq_iff_eq,
          marker, or_false] at known
        grind
      all_goals cases h

end keys

/-! ## Where a key goes -/

section taken

variable {s : State} {p : PageNum} {k : Key} {b : Byte}

/-- R46: with no page ACTIVE a key changes the no-page notice, RESET nothing. -/
theorem State.editKey_of_noPage (active : s.active = none) (k : Key) : s.editKey k =
    if k = .reset then s else { s with noPage := some (if k = .unknown then .eKey else .eNoForm) } := by
  unfold State.editKey
  rw [active]
  cases k <;> rfl

/-- R66: in error hold every key but RESET is discarded. -/
theorem State.editKey_of_hold (active : s.active = some p) (hold : (s.page p).hold ≠ none) (other : k ≠ .reset) :
    s.editKey k = s := by
  have held : (s.page p).hold.isSome = true := Option.isSome_iff_ne_none.2 hold
  simp only [State.editKey, active, held, if_true]

/-- R66: RESET ends error hold and clears the last notice code. -/
theorem State.editKey_reset (active : s.active = some p) :
    s.editKey .reset = s.setPage p { s.page p with hold := none, notice := none } := by
  by_cases hold : (s.page p).hold = none
  · rw [State.editKey_of_free active hold, ← hold]
    rfl
  · exact State.editKey_reset_of_hold active hold

/-- R92: during inhibit RESET empties the type-ahead queue and is then taken. -/
theorem State.takeKey_reset_of_inhibited (active : s.active = some p) (inhibited : s.inhibited = true)
    (reset : keyOfByte b = .reset) : s.takeKey b = s.dropKeys.editKey .reset := by
  simp only [State.takeKey, active, inhibited, reset, if_true]

/-- R66, R93: a key other than RESET that finds the active page in error hold is discarded, inhibit or not. -/
theorem State.takeKey_of_hold (active : s.active = some p) (hold : (s.page p).hold ≠ none)
    (other : keyOfByte b ≠ .reset) : s.takeKey b = s := by
  have discarded : s.editKey (keyOfByte b) = s := State.editKey_of_hold active hold other
  have held : (s.page p).hold.isSome = true := Option.isSome_iff_ne_none.2 hold
  unfold State.takeKey
  simp only [active]
  split
  · split
    · contradiction
    · exact State.editKey_of_hold active hold nofun
    · exact discarded
  · exact discarded

/-- R93: during inhibit, outside error hold, every key but RESET and ATTN is given to the type-ahead queue. -/
theorem State.takeKey_of_inhibited (active : s.active = some p) (hold : (s.page p).hold = none)
    (inhibited : s.inhibited = true) (notReset : keyOfByte b ≠ .reset) (notAttn : keyOfByte b ≠ .attn) :
    s.takeKey b = s.queueKey p b := by
  unfold State.takeKey
  simp only [active, inhibited, if_true]
  split
  · simp_all
  · rfl

/-- R93: a key joins the queue while the setting allows it and there is room. -/
theorem State.queueKey_eq (s : State) (p : PageNum) (b : Byte) : s.queueKey p b =
    if s.keys.typeAhead = false then s.setPage p { s.page p with notice := some .wait }
    else if s.keys.queue.length < 16 then { s with keys := { s.keys with queue := s.keys.queue ++ [b] } }
    else s.setPage p { s.page p with notice := some .eFull } := by
  unfold State.queueKey
  simp only [Bool.not_eq_true', State.setNotice_eq]

end taken

/-- Settles O51: the page, error hold and inhibit decide where a key goes. -/
theorem keysHeldAndRefused : Obligations.KeysHeldAndRefused := by
  intro s c b code marker frame
  have sent : exec c s = .next (s.takeKey b) :=
    (exec_of_keyCode code s).trans (congrArg Host.Outcome.next (State.takeInput_key s b frame marker))
  have notReset (other : b ≠ 0x8D#8) : keyOfByte b ≠ .reset := mt keyOfByte_eq_reset_iff.1 other
  rw [sent]
  refine ⟨fun active => congrArg Host.Outcome.next ?_, fun p active => ⟨fun hold other => ?_,
    fun inhibited reset => ?_, fun hold inhibited other other' => ?_⟩⟩
  · have taken : s.takeKey b = s.editKey (keyOfByte b) := by simp only [State.takeKey, active]
    rw [taken, State.editKey_of_noPage active]
    simp only [keyOfByte_eq_reset_iff, keyOfByte_eq_unknown_iff marker, apply_ite some]
    split
    · rfl
    · split <;> rfl
  · rw [State.takeKey_of_hold active hold (notReset other)]
  · rw [State.takeKey_reset_of_inhibited active inhibited (keyOfByte_eq_reset_iff.2 reset),
      State.editKey_reset (s := s.dropKeys) active]
    rfl
  · rw [State.takeKey_of_inhibited active hold inhibited (notReset other) (mt keyOfByte_eq_attn_iff.1 other'),
      State.queueKey_eq]

end Sys2Proof.Machine

/-! # Frames

A frame is handed over byte by byte (R89) and judged with its last byte (R101, R103). -/

namespace Sys2Proof.Machine

/-! ## The judging of a frame -/

section judge

variable {s : State} {p : PageNum} {length : Nat} {characters : List Byte}

/-- R101: a frame of length 0 or above 64 is refused; the active page shows it, outside error hold. -/
theorem State.judgeFrame_of_badLength (bad : length = 0 ∨ 64 < length) (characters : List Byte) :
    s.judgeFrame length characters =
      match s.active with
      | some p => if (s.page p).hold = none then (s.answerScan .nakReject).setNotice p (some .sReject)
        else s.answerScan .nakReject
      | none => s.answerScan .nakReject := by
  unfold State.judgeFrame
  rw [if_pos bad]
  rfl

/-- R103: with no page ACTIVE a frame is refused. -/
theorem State.judgeFrame_of_noPage (active : s.active = none) (length : Nat) (characters : List Byte) :
    s.judgeFrame length characters = s.answerScan .nakReject := by
  unfold State.judgeFrame
  simp only [State.answerScan_active, active, ite_self]

section good

variable (good : 1 ≤ length ∧ length ≤ 64) (active : s.active = some p)

include good active

/-- R103: in error hold a frame is answered busy. -/
theorem State.judgeFrame_of_hold (hold : (s.page p).hold ≠ none) :
    s.judgeFrame length characters = s.answerScan .nakBusy := by
  have held : (s.page p).hold.isSome = true := Option.isSome_iff_ne_none.2 hold
  unfold State.judgeFrame
  rw [if_neg (by omega)]
  simp only [active, held, if_true]

/-- R103: during inhibit the first frame is held; another is answered busy. -/
theorem State.judgeFrame_of_inhibited (hold : (s.page p).hold = none) (inhibited : s.inhibited = true) :
    s.judgeFrame length characters =
      if s.scan.buffer = none then { s with scan := { s.scan with buffer := some characters } }
      else s.answerScan .nakBusy := by
  unfold State.judgeFrame
  rw [if_neg (by omega)]
  simp only [active, hold, inhibited, Option.isSome_none, Bool.false_eq_true, if_false, if_true]
  cases s.scan.buffer <;> rfl

/-- R105: outside error hold and inhibit a frame is routed. -/
theorem State.judgeFrame_of_free (hold : (s.page p).hold = none) (free : s.inhibited = false) :
    s.judgeFrame length characters = s.routeFrame p characters := by
  unfold State.judgeFrame
  rw [if_neg (by omega)]
  simp only [active, hold, free, Option.isSome_none, Bool.false_eq_true, if_false]

end good

/-- R105: a frame has no target when no chain is current and the cursor's field admits no scans. -/
theorem Page.scanTarget_of_noField {g : Page} (current : g.current = none)
    (keyOnly : ∀ f e, g.entryAt g.cursor = some f → f.entry = some e → e.source = .key) : g.scanTarget = none := by
  unfold Page.scanTarget
  rw [current]
  refine Option.filter_eq_none_iff.2 fun f at_ admits => ?_
  obtain ⟨e, entry, other⟩ := (Option.any_eq_true _ _).1 admits
  exact of_decide_eq_true other (keyOnly f e at_ entry)

end judge

/-! ## The bytes of a frame -/

section bytes

variable {s : State} {length : Byte} {characters : List Byte}

theorem State.unframed_of_frameFree (free : s.frameFree) : s.unframed = s := by
  obtain ⟨frame, receiving⟩ := free
  unfold State.unframed
  rw [← frame, ← receiving]

/-- R101: the characters of a frame above 64 are not looked at. -/
theorem State.judgeFrame_long {length : Nat} (long : 64 < length) (characters others : List Byte) :
    s.judgeFrame length characters = s.judgeFrame length others := by
  rw [State.judgeFrame_of_badLength (.inr long), State.judgeFrame_of_badLength (.inr long)]

/-- R89, R101: a whole frame is judged with its last byte. -/
theorem State.takeInput_wholeFrame (free : s.frameFree) (counted : characters.length = length.toNat) :
    s.takeInput (0x1D#8 :: length :: characters) = s.judgeFrame length.toNat characters := by
  have whole := State.unframed_of_frameFree free
  by_cases empty : length.toNat = 0
  · obtain rfl : length = 0x00#8 := BitVec.eq_of_toNat_eq empty
    obtain rfl : characters = [] := List.length_eq_zero_iff.1 counted
    exact s.takeInput_emptyFrame free.1
  · by_cases long : 64 < length.toNat
    · rw [State.takeInput_longFrame s length characters free.1 counted long, whole]
      exact State.judgeFrame_long long _ _
    · rw [State.takeInput_frame s length characters free.1 counted (by omega) (by omega), whole]

theorem State.answerScan_eq_scanAnswered (s : State) (a : ScanAnswer) : s.answerScan a = s.scanAnswered a := rfl

theorem State.page_scanAnswered (s : State) (a : ScanAnswer) (q : PageNum) : (s.scanAnswered a).page q = s.page q := rfl

end bytes

/-- Settles O52: a whole frame is judged, and each byte of a frame in progress counts down to that judging. -/
theorem scanFramesAreJudged : Obligations.ScanFramesAreJudged := by
  intro s
  refine ⟨fun length characters free counted => ?_, fun k b code => ?_⟩
  · have judged : exec (.scanFrame length characters) s = .next (s.judgeFrame length.toNat characters) :=
      congrArg Host.Outcome.next (State.takeInput_wholeFrame free counted)
    simp only [judged]
    refine ⟨fun bad => ⟨fun active => ?_, fun p active => ⟨fun hold => ?_, fun hold => ?_⟩⟩,
      fun least most => ⟨fun active => ?_, fun p active => ⟨fun hold => ?_, fun hold inhibited full => ?_,
        fun hold inhibited empty => ?_, fun hold free confirm current keyOnly => ?_⟩⟩⟩
    · rw [State.judgeFrame_of_noPage active, State.answerScan_eq_scanAnswered]
    · simp only [State.judgeFrame_of_badLength bad, active, if_neg hold, State.answerScan_eq_scanAnswered]
    · simp only [State.judgeFrame_of_badLength bad, active, if_pos hold, State.answerScan_eq_scanAnswered,
        State.setNotice_eq, State.page_scanAnswered]
    · rw [State.judgeFrame_of_noPage active, State.answerScan_eq_scanAnswered]
    · rw [State.judgeFrame_of_hold ⟨least, most⟩ active hold, State.answerScan_eq_scanAnswered]
    · rw [State.judgeFrame_of_inhibited ⟨least, most⟩ active hold inhibited, if_neg full,
        State.answerScan_eq_scanAnswered]
    · rw [State.judgeFrame_of_inhibited ⟨least, most⟩ active hold inhibited, if_pos empty]
    · have noTarget := Page.scanTarget_of_noField current keyOnly
      simp only [State.judgeFrame_of_free ⟨least, most⟩ active hold free, State.routeFrame, confirm, State.routeByPage,
        noTarget, State.rejectScan, State.answerScan_eq_scanAnswered, State.setNotice_eq, State.page_scanAnswered]
  · have taken : exec k s = .next (s.takeInputByte b) := exec_of_keyCode code s
    simp only [taken]
    refine ⟨fun frame marker => ?_, fun frame empty => ?_, fun frame some_ => ?_, fun n r frame receiving more => ?_,
      fun r characters frame receiving counted kept => ?_⟩
    · simp only [State.takeInputByte, frame, if_pos marker]
    · refine congrArg Host.Outcome.next (.trans ?_ (State.takeInput_emptyFrame _ rfl).symm)
      simp only [State.takeInputByte, frame, if_pos empty]
    · simp only [State.takeInputByte, frame, if_neg some_]
    · simp only [State.takeInputByte, frame, receiving, Option.getD_some]
      rw [if_neg (by omega)]
    · refine congrArg Host.Outcome.next (.trans ?_ (State.takeInput_wholeFrame ⟨rfl, rfl⟩ counted).symm)
      simp only [State.takeInputByte, frame, receiving, Option.getD_some, Nat.le_refl, if_true]
      by_cases long : 64 < r.length.toNat
      · exact State.judgeFrame_long long _ _
      · rw [kept (by omega), if_pos (by omega)]

end Sys2Proof.Machine

/-! # Two runs side by side

The Edit Engine and the Scan Unit see the pages, the ready queue, the report queue and the confirm-pending record, and
neither the type-ahead queue nor the interpreter. What they make of two states that they see alike is said once here: a
relation between two states that each of their few operations keeps is kept by every key and every routed frame. -/

namespace Sys2Proof.Machine

/-! ## Pages reworked -/

/-- A change of a page that keeps the numbers of its fields and its error hold. -/
structure Page.Reworked (g h : Page) : Prop where
  numbers : h.fields.map (·.number) = g.fields.map (·.number)
  hold : h.hold = g.hold

section reworked

variable {g h k : Page}

theorem Page.Reworked.refl (g : Page) : g.Reworked g := ⟨rfl, rfl⟩

theorem Page.Reworked.trans (a : g.Reworked h) (b : h.Reworked k) : g.Reworked k :=
  ⟨b.numbers.trans a.numbers, b.hold.trans a.hold⟩

/-- A field of a reworked page has the number of a field that was there before, and the other way round. -/
theorem Page.Reworked.exists_number_iff (a : g.Reworked h) {n : Nat} :
    (∃ f ∈ h.fields, f.number = n) ↔ ∃ f ∈ g.fields, f.number = n := by
  rw [← List.mem_map, ← List.mem_map, a.numbers]

variable (g)

theorem Page.reworked_updField (n : Nat) {change : Field → Field} (same : ∀ f, (change f).number = f.number) :
    g.Reworked (g.updField n change) := by
  refine ⟨?_, rfl⟩
  have each (f : Field) : (if f.number = n then change f else f).number = f.number := by
    split
    · exact same f
    · rfl
  simp only [Page.updField, List.map_map, Function.comp_def, each]

theorem Page.reworked_updEntry (n : Nat) (change : EntryItems → EntryItems) : g.Reworked (g.updEntry n change) :=
  g.reworked_updField n fun _ => rfl

theorem Page.reworked_updChain (c : ChainId) (change : Chain → Chain) : g.Reworked (g.updChain c change) := ⟨rfl, rfl⟩

theorem Page.reworked_selectMember (n : Nat) : g.Reworked (g.selectMember n) := by
  unfold Page.selectMember
  split
  · exact ⟨rfl, rfl⟩
  · exact .refl g

theorem Page.reworked_arrive (position : Nat) : g.Reworked (g.arrive position) := by
  have moved : g.Reworked { g with cursor := position } := ⟨rfl, rfl⟩
  unfold Page.arrive
  simp only
  split
  · split
    · exact moved
    · exact (moved.trans (Page.reworked_updEntry _ _ _)).trans (Page.reworked_selectMember _ _)
  · exact moved

theorem Page.reworked_writeChecked (f : Field) (out : List Byte) : g.Reworked (g.writeChecked f out) := by
  rw [Page.writeChecked_eq]
  exact ⟨rfl, rfl⟩

theorem Page.reworked_passExit (f : Field) (out : List Byte) : g.Reworked (g.passExit f out) :=
  (g.reworked_writeChecked f out).trans (Page.reworked_updEntry _ _ _)

theorem Page.reworked_failWalk (f : Field) (code : ErrorCode) : g.Reworked (g.failWalk f code) := by
  have marked : g.Reworked (g.updEntry f.number (·.sendFailed code)) := g.reworked_updEntry _ _
  have placed (h : Page) : h.Reworked { h with cursor := f.start } := ⟨rfl, rfl⟩
  unfold Page.failWalk
  simp only
  split
  · exact marked
  · exact (marked.trans (placed _)).trans (Page.reworked_selectMember _ _)

theorem Page.reworked_walk (fs : List Field) : g.Reworked (g.walk fs).page := by
  induction fs generalizing g with
  | nil => exact .refl g
  | cons f fs ih =>
    simp only [Page.walk]
    split
    · exact ih g
    · exact ((g.reworked_writeChecked f _).trans (Page.reworked_updEntry _ _ _)).trans (ih _)
    · exact g.reworked_failWalk f _

theorem Page.reworked_validateSend : g.Reworked g.validateSend.page := by
  have first : g.Reworked g.validateCursorField.page := by
    unfold Page.validateCursorField
    split
    · split
      · split
        · exact g.reworked_passExit _ _
        · exact g.reworked_updEntry _ _
      · exact .refl g
    · exact .refl g
  unfold Page.validateSend
  split
  · rename_i h
    rw [h] at first
    exact first.trans (Page.reworked_walk _ _)
  · exact first

theorem Page.reworked_editAction (group : List Field) (acting : List Nat) (touch : Nat) (writes : List (Nat × Byte)) :
    g.Reworked (g.editAction group acting touch writes) := by
  have each (before after : Cells) (numbers : List Nat) (f : Field) :
      (f.afterEdit before after numbers acting touch).number = f.number := by
    rw [← Field.definition_number, Field.definition_afterEdit, Field.definition_number]
  refine ⟨?_, rfl⟩
  simp only [Page.editAction, List.map_map, Function.comp_def, each]

theorem Page.reworked_clearGroup (f : Field) : g.Reworked (g.clearGroup f) :=
  (g.reworked_arrive _).trans (Page.reworked_editAction _ _ _ _ _)

theorem Page.reworked_deposit (f : Field) (cells : Cells) :
    g.Reworked { ({ g with cells := cells }.updField f.number (·.deposited)) with notice := none } :=
  .trans (h := { g with cells := cells }) ⟨rfl, rfl⟩
    (.trans (Page.reworked_updField _ f.number (change := Field.deposited) fun _ => rfl) ⟨rfl, rfl⟩)

variable {g} in
/-- R105: the target of a frame is a field of the page. -/
theorem Page.mem_of_scanTarget {f : Field} (h : g.scanTarget = some f) : f ∈ g.fields := by
  unfold Page.scanTarget at h
  split at h
  · obtain ⟨n, -, found⟩ := Option.bind_eq_some_iff.1 h
    exact (Page.fieldNumbered_some found).1
  · exact (Page.mem_of_entryAt (Option.filter_eq_some_iff.1 h).1).1

end reworked

/-! ## The operations -/

/-- What the Edit Engine and the Scan Unit look at of a state, alike in two. -/
structure State.Alike (s s' : State) : Prop where
  pages : s'.pages = s.pages
  active : s'.active = s.active
  reports : s'.reports = s.reports
  scan : s'.scan = s.scan

/-- A relation between two states that are seen alike, kept when the same operation on page p is carried out in both: the
page is reworked, enters error hold, is sent or parked; a report is queued; a frame is answered; the confirm-pending record
is made or dropped. -/
structure Parallel (p : PageNum) (R : State → State → Prop) : Prop where
  alike {s s' : State} : R s s' → s.Alike s'
  setPage {s s' : State} {g : Page} : R s s' → (s.page p).Reworked g → R (s.setPage p g) (s'.setPage p g)
  enterHold {s s' : State} (code : ErrorCode) : R s s' → R (s.enterHold p code) (s'.enterHold p code)
  queueReport {s s' : State} (r : Report) : R s s' → R (s.queueReport r) (s'.queueReport r)
  acceptSend {s s' : State} (id : Nat) : R s s' → s.active = some p → R (s.acceptSend p id) (s'.acceptSend p id)
  parkKey {s s' : State} : R s s' → s.active = some p → R (s.parkKey p) (s'.parkKey p)
  answerScan {s s' : State} (a : ScanAnswer) : R s s' → R (s.answerScan a) (s'.answerScan a)
  dropConfirm {s s' : State} : R s s' → R s.dropConfirm s'.dropConfirm
  awaitConfirm {s s' : State} {f : Field} (characters : List Byte) : R s s' → s.active = some p →
    f ∈ (s.page p).fields → R (s.awaitConfirm p f characters) (s'.awaitConfirm p f characters)

namespace Parallel

variable {p : PageNum} {R : State → State → Prop} {s s' : State}

theorem page (par : Parallel p R) (r : R s s') : s'.page p = s.page p := by
  simp only [State.page, (par.alike r).pages]

theorem queueFull (par : Parallel p R) (r : R s s') : s'.queueFull = s.queueFull := by
  simp only [State.queueFull, (par.alike r).reports]

variable (par : Parallel p R) (r : R s s')

include par r

theorem updPage {f : Page → Page} (h : (s.page p).Reworked (f (s.page p))) : R (s.updPage p f) (s'.updPage p f) := by
  unfold State.updPage
  rw [par.page r]
  exact par.setPage r h

theorem setNotice (n : Option Notice) : R (s.setNotice p n) (s'.setNotice p n) := par.updPage r ⟨rfl, rfl⟩

theorem raiseAttention (cause : Cause) : R (s.raiseAttention p cause) (s'.raiseAttention p cause) := by
  unfold State.raiseAttention
  rw [par.queueFull r, par.page r]
  split
  · exact par.updPage r ⟨rfl, rfl⟩
  · exact par.queueReport _ r

/-! ### Editing -/

theorem deleteKey : R (s.deleteKey p) (s'.deleteKey p) := by
  unfold State.deleteKey
  simp only [par.page r]
  split
  · exact par.enterHold _ r
  · exact par.setPage r (Page.reworked_editAction _ _ _ _ _)

theorem eraseEofKey : R (s.eraseEofKey p) (s'.eraseEofKey p) := by
  unfold State.eraseEofKey
  simp only [par.page r]
  split
  · exact par.enterHold _ r
  · exact par.setPage r (Page.reworked_editAction _ _ _ _ _)

theorem clearFieldKey : R (s.clearFieldKey p) (s'.clearFieldKey p) := by
  unfold State.clearFieldKey
  simp only [par.page r]
  split
  · exact par.enterHold _ r
  · exact par.setPage r (Page.reworked_clearGroup _ _)

variable (active : s.active = some p)

include active

theorem send (id : Nat) : R (s.send p id) (s'.send p id) := by
  have valid := par.setPage r (Page.reworked_validateSend _)
  unfold State.send
  simp only [par.page r]
  split
  · exact par.enterHold _ valid
  · rw [par.queueFull valid]
    split
    · exact par.setNotice valid _
    · exact par.acceptSend id valid active

theorem exitOption (f : Field) : R (s.exitOption p f) (s'.exitOption p f) := by
  unfold State.exitOption
  split
  · exact r
  · split
    · exact r
    · exact par.raiseAttention r _
    · exact par.send r active 14

theorem moveCursor (position : Nat) (continuation : Bool) :
    R (s.moveCursor p position continuation) (s'.moveCursor p position continuation) := by
  have arrived := par.setPage r (Page.reworked_arrive _ position)
  unfold State.moveCursor
  simp only [par.page r]
  split
  · split
    · split
      · exact par.exitOption (par.setPage r ((Page.reworked_passExit _ _ _).trans (Page.reworked_arrive _ _))) active _
      · exact par.enterHold _ (par.setPage r (Page.reworked_updEntry _ _ _))
    · exact arrived
  · exact arrived

theorem advance (f : Field) : R (s.advance p f) (s'.advance p f) := by
  unfold State.advance
  simp only [par.page r]
  split
  · exact par.moveCursor r active _ _
  · cases f.continuation.bind (s.page p).fieldNumbered with
    | some target => exact par.moveCursor r active _ _
    | none =>
      simp only
      split
      · exact par.moveCursor r active _ _
      · exact par.moveCursor r active _ _

theorem typeCharacter (b : Byte) : R (s.typeCharacter p b) (s'.typeCharacter p b) := by
  unfold State.typeCharacter
  simp only [par.page r]
  split
  · exact par.enterHold _ r
  · split
    · exact par.enterHold _ r
    · split
      · exact par.enterHold _ r
      · split
        · exact par.enterHold _ r
        · exact par.advance (par.setPage r (Page.reworked_editAction _ _ _ _ _)) active _

theorem backspaceKey : R (s.backspaceKey p) (s'.backspaceKey p) := by
  unfold State.backspaceKey
  simp only [par.page r]
  split
  · exact par.enterHold _ r
  · exact par.deleteKey (par.moveCursor r active _ _)

/-- A key on the active page outside error hold. -/
theorem actKey (k : Key) : R (s.actKey p k) (s'.actKey p k) := by
  unfold State.actKey
  simp only [par.page r]
  cases k with
  | left | right | up | down | tab | backtab | home | newline => exact par.moveCursor r active _ _
  | insert => exact par.updPage r ⟨rfl, rfl⟩
  | delete => exact par.deleteKey r
  | backspace => exact par.backspaceKey r active
  | eraseEof => exact par.eraseEofKey r
  | clearField => exact par.clearFieldKey r
  | reset => exact r
  | attn => exact par.raiseAttention r _
  | park => exact par.parkKey r active
  | send id => exact par.send r active id
  | character b => exact par.typeCharacter r active b
  | unknown => exact par.setNotice r _

/-! ### Scans -/

theorem chainAction (c : ChainId) (action : Action) : R (s.chainAction p c action) (s'.chainAction p c action) := by
  cases action with
  | nothing => exact r
  | attn => exact par.raiseAttention r _
  | send => exact par.send r active 13

theorem stepChain (c : ChainId) (k : Nat) : R (s.stepChain p c k) (s'.stepChain p c k) := by
  have stepped := par.updPage (f := fun g => g.updChain c (·.stepped k)) r (Page.reworked_updChain _ _ _)
  unfold State.stepChain
  simp only [par.page stepped]
  cases ((s.updPage p fun g => g.updChain c (·.stepped k)).page p).chains[c.val] with
  | none => exact stepped
  | some chain =>
    simp only
    split
    · exact par.updPage (f := fun g => g.updChain c fun ch => { ch with remaining := ch.count })
        (par.chainAction stepped active _ _) (Page.reworked_updChain _ _ _)
    · exact stepped

omit active in
theorem followMove (f : Field) : R (s.followMove p f) (s'.followMove p f) := by
  unfold State.followMove
  rw [(par.alike r).active, par.page r]
  split
  · exact par.moveCursor r (And.left ‹_›) _ _
  · exact r

theorem deposit (f : Field) (cells : List Byte) : R (s.deposit p f cells) (s'.deposit p f cells) := by
  have deposited := par.answerScan .ack (par.updPage r (f := fun g =>
    { ({ g with cells := g.cells.writeRun f.start cells }.updField f.number (·.deposited)) with notice := none })
    (Page.reworked_deposit _ _ _))
  unfold State.deposit
  simp only [par.page deposited]
  split
  · exact deposited
  · split
    · exact par.followMove (par.stepChain deposited active _ _) f
    · exact par.stepChain deposited active _ _

omit active in
theorem rejectScan : R (s.rejectScan p) (s'.rejectScan p) := par.setNotice (par.answerScan _ r) _

theorem takeRead {f : Field} (named : f ∈ (s.page p).fields) (confirming : Bool) (characters : List Byte) :
    R (s.takeRead p f confirming characters) (s'.takeRead p f confirming characters) := by
  unfold State.takeRead
  split
  · exact par.rejectScan r
  · split
    · exact par.awaitConfirm characters r active named
    · exact par.deposit r active _ _

theorem routeByPage (characters : List Byte) : R (s.routeByPage p characters) (s'.routeByPage p characters) := by
  unfold State.routeByPage
  rw [par.page r]
  split
  · exact par.takeRead r active (Page.mem_of_scanTarget ‹_›) _ _
  · exact par.rejectScan r

/-- A frame routed on the active page. -/
theorem routeFrame (characters : List Byte) : R (s.routeFrame p characters) (s'.routeFrame p characters) := by
  have dropped := par.dropConfirm r
  unfold State.routeFrame
  rw [(par.alike r).scan, par.page r]
  split
  · split
    · split
      · exact par.takeRead dropped active (Page.fieldNumbered_some ‹_›).1 _ _
      · exact par.rejectScan dropped
    · exact par.routeByPage dropped active _
  · exact par.routeByPage r active _

end Parallel

end Sys2Proof.Machine

/-! # The law of held input

What the Key Input Unit and the Scan Unit hold: keys and a frame only during inhibit (R93, R98, R103), a confirm-pending
record only with its page ACTIVE and its target on that page (R112, R114), a frame in progress with the characters kept of
it (R88, R89). Most changes feed nothing in; they keep the law while inhibit lasts, and outside inhibit there is nothing
to keep. -/

namespace Sys2Proof.Machine

/-! ## The parts of the law -/

/-- The law of the confirm-pending record and its window (R100, R112, R114). -/
structure State.ConfirmLaw (s : State) : Prop where
  target : ∀ r, s.scan.confirm = some r →
    s.active = some r.page ∧ ∃ f ∈ (s.page r.page).fields, f.number = r.field
  window : s.scan.window.isSome = s.scan.confirm.isSome

/-- The law of the frame in progress (R88, R89). -/
structure State.FrameLaw (s : State) : Prop where
  counting : ∀ n, s.keys.frame = .counting n → 1 ≤ n ∧ n ≤ 255
  receiving : s.scan.receiving.isSome = true ↔ ∃ n, s.keys.frame = .counting n

/-- The law of the keys and the frame held during inhibit (R92, R93, R98, R103). -/
structure State.HeldLaw (s : State) : Prop where
  bound : s.keys.queue.length ≤ 16
  held : s.keys.queue ≠ [] → s.inhibited = true
  codes : ∀ b ∈ s.keys.queue, keyOfByte b ≠ .reset ∧ keyOfByte b ≠ .attn
  setting : s.keys.typeAhead = false → s.keys.queue = []
  buffer : s.scan.buffer ≠ none → s.inhibited = true

/-- The ranges of the settings (R115, R120). -/
def State.SettingLaw (s : State) : Prop :=
  1 ≤ s.interp.confirmWindow ∧ s.interp.confirmWindow ≤ 50 ∧ s.interp.replyLimit ≤ 255

theorem State.inputLaw_iff {s : State} :
    s.InputLaw ↔ s.HeldLaw ∧ s.ConfirmLaw ∧ s.FrameLaw ∧ s.SettingLaw := by
  constructor
  · intro h
    exact ⟨⟨h.bound, h.held, h.codes, h.setting, h.buffer⟩, ⟨h.confirm, h.window⟩, ⟨h.counting, h.frame⟩, h.settings⟩
  · rintro ⟨a, b, c, d⟩
    exact ⟨a.bound, a.held, a.codes, a.setting, a.buffer, b.target, b.window, c.counting, c.receiving, d⟩

/-- No input is held. -/
def State.Unheld (s : State) : Prop := s.keys.queue = [] ∧ s.scan.buffer = none

section held

variable {s t u : State} {p : PageNum}

theorem State.Unheld.heldLaw (h : s.Unheld) : s.HeldLaw where
  bound := by simp [h.1]
  held e := absurd h.1 e
  codes b m := by simp [h.1] at m
  setting _ := h.1
  buffer e := absurd h.2 e

/-- R93, R103: outside inhibit no input is held. -/
theorem State.HeldLaw.unheld (h : s.HeldLaw) (free : s.inhibited = false) : s.Unheld := by
  constructor
  · by_contra e
    rw [h.held e] at free
    cases free
  · by_contra e
    rw [h.buffer e] at free
    cases free

/-! ## Changes that feed nothing in -/

/-- Every field number of the one page is a field number of the other. -/
def Page.KeepsNumbers (g h : Page) : Prop := ∀ f ∈ g.fields, ∃ e ∈ h.fields, e.number = f.number

theorem Page.KeepsNumbers.of_fields {g h : Page} (e : h.fields = g.fields) : g.KeepsNumbers h :=
  fun f hf => ⟨f, e ▸ hf, rfl⟩

theorem Page.Reworked.keepsNumbers {g h : Page} (a : g.Reworked h) : g.KeepsNumbers h :=
  fun f hf => a.exists_number_iff.2 ⟨f, hf, rfl⟩

theorem Page.Tended.keepsNumbers {g h : Page} (a : g.Tended h) : g.KeepsNumbers h := fun f hf => by
  obtain ⟨e, he, same⟩ := Page.mem_of_defs a.defs.symm hf
  exact ⟨e, he, by rw [← e.definition_number, same, f.definition_number]⟩

/-- A change that takes in no key, no frame and no setting: queued keys may be released, and a held frame, and what is kept
of a frame in progress stays. -/
structure State.Unfed (s t : State) : Prop where
  queue : t.keys.queue <:+ s.keys.queue
  typeAhead : t.keys.typeAhead = s.keys.typeAhead
  frame : t.keys.frame = s.keys.frame
  buffer : t.scan.buffer = none ∨ t.scan.buffer = s.scan.buffer
  receiving : t.scan.receiving = s.scan.receiving
  settings : t.interp.confirmWindow = s.interp.confirmWindow ∧ t.interp.replyLimit = s.interp.replyLimit
  confirm : s.ConfirmLaw → t.ConfirmLaw

theorem State.Unfed.refl (s : State) : s.Unfed s := ⟨List.suffix_rfl, rfl, rfl, .inr rfl, rfl, ⟨rfl, rfl⟩, id⟩

theorem State.Unfed.trans (a : s.Unfed t) (b : t.Unfed u) : s.Unfed u where
  queue := b.queue.trans a.queue
  typeAhead := b.typeAhead.trans a.typeAhead
  frame := b.frame.trans a.frame
  buffer := b.buffer.elim .inl fun e => a.buffer.imp e.trans e.trans
  receiving := b.receiving.trans a.receiving
  settings := ⟨b.settings.1.trans a.settings.1, b.settings.2.trans a.settings.2⟩
  confirm := b.confirm ∘ a.confirm

/-- A confirm-pending record stays lawful while its page stays ACTIVE and keeps the record's target. -/
theorem State.ConfirmLaw.keep (h : s.ConfirmLaw) (confirm : t.scan.confirm = s.scan.confirm)
    (window : t.scan.window.isSome = s.scan.window.isSome) (active : t.active = s.active)
    (numbers : ∀ q, s.active = some q → (s.page q).KeepsNumbers (t.page q)) : t.ConfirmLaw where
  target r e := by
    obtain ⟨here, f, hf, number⟩ := h.target r (confirm ▸ e)
    obtain ⟨x, hx, same⟩ := numbers _ here f hf
    exact ⟨active.trans here, x, hx, same.trans number⟩
  window := by rw [window, confirm, h.window]

theorem State.confirmLaw_of_none (confirm : s.scan.confirm = none) (window : s.scan.window = none) : s.ConfirmLaw :=
  ⟨fun r e => by simp [confirm] at e, by rw [confirm, window]; rfl⟩

/-- A change of neither unit that keeps the active page, and its field numbers. -/
theorem State.Unfed.of_same (keys : t.keys = s.keys) (scan : t.scan = s.scan) (active : t.active = s.active)
    (settings : t.interp.confirmWindow = s.interp.confirmWindow ∧ t.interp.replyLimit = s.interp.replyLimit)
    (numbers : ∀ q, s.active = some q → (s.page q).KeepsNumbers (t.page q)) : s.Unfed t where
  queue := by rw [keys]
  typeAhead := by rw [keys]
  frame := by rw [keys]
  buffer := .inr (by rw [scan])
  receiving := by rw [scan]
  settings := settings
  confirm h := h.keep (by rw [scan]) (by rw [scan]) active numbers

/-- A change outside the two units, the pages and Page Control. -/
theorem State.Unfed.of_pages (keys : t.keys = s.keys) (scan : t.scan = s.scan) (active : t.active = s.active)
    (settings : t.interp.confirmWindow = s.interp.confirmWindow ∧ t.interp.replyLimit = s.interp.replyLimit)
    (pages : t.pages = s.pages) : s.Unfed t :=
  .of_same keys scan active settings fun q _ => .of_fields (by simp only [State.page, pages])

theorem State.Unfed.setPage {g : Page} (h : (s.page p).KeepsNumbers g) : s.Unfed (s.setPage p g) :=
  .of_same rfl rfl rfl ⟨rfl, rfl⟩ fun q _ => by
    rw [State.page_setPage]
    split
    · subst_vars
      exact h
    · exact .of_fields rfl

theorem State.Unheld.unfed (h : s.Unheld) (a : s.Unfed t) : t.Unheld := by
  obtain ⟨queue, buffer⟩ := h
  exact ⟨List.suffix_nil.1 (queue ▸ a.queue), a.buffer.elim id fun e => e.trans buffer⟩

theorem State.FrameLaw.unfed (h : s.FrameLaw) (a : s.Unfed t) : t.FrameLaw where
  counting := by rw [a.frame]; exact h.counting
  receiving := by rw [a.frame, a.receiving]; exact h.receiving

theorem State.SettingLaw.unfed (h : s.SettingLaw) (a : s.Unfed t) : t.SettingLaw := by
  unfold State.SettingLaw
  rw [a.settings.1, a.settings.2]
  exact h

/-- R93, R98, R103: a change that feeds nothing in keeps the law while inhibit lasts. -/
theorem State.InputLaw.unfed (h : s.InputLaw) (a : s.Unfed t) (lasts : s.inhibited = true → t.inhibited = true) :
    t.InputLaw := by
  obtain ⟨held, confirm, frame, settings⟩ := State.inputLaw_iff.1 h
  refine State.inputLaw_iff.2 ⟨⟨a.queue.length_le.trans held.bound, fun e => ?_, fun b m => ?_, fun off => ?_,
    fun e => ?_⟩, a.confirm confirm, frame.unfed a, settings.unfed a⟩
  · refine lasts (held.held fun empty => e ?_)
    exact List.suffix_nil.1 (empty ▸ a.queue)
  · exact held.codes b (a.queue.subset m)
  · exact List.suffix_nil.1 (held.setting (a.typeAhead ▸ off) ▸ a.queue)
  · exact lasts (held.buffer fun empty => e (a.buffer.elim id fun same => same.trans empty))

/-- The law holds, inhibit or not, of a state that holds no input. -/
theorem State.InputLaw.unfed_of_unheld (h : s.InputLaw) (a : s.Unfed t) (empty : t.Unheld) : t.InputLaw := by
  obtain ⟨-, confirm, frame, settings⟩ := State.inputLaw_iff.1 h
  exact State.inputLaw_iff.2 ⟨empty.heldLaw, a.confirm confirm, frame.unfed a, settings.unfed a⟩

theorem State.InputLaw.heldLaw (h : s.InputLaw) : s.HeldLaw := (State.inputLaw_iff.1 h).1

end held

end Sys2Proof.Machine

namespace Sys2Proof.Machine

/-! ## The operator's side

No key and no routed frame feeds anything in. -/

section operator

variable {s : State} {p : PageNum}

theorem State.unfed_updPage (s : State) {f : Page → Page} (h : (s.page p).KeepsNumbers (f (s.page p))) :
    s.Unfed (s.updPage p f) := .setPage h

theorem State.unfed_setNotice (s : State) (p : PageNum) (n : Option Notice) : s.Unfed (s.setNotice p n) :=
  .setPage (.of_fields rfl)

theorem State.unfed_dropKeys (s : State) : s.Unfed s.dropKeys :=
  ⟨List.nil_suffix, rfl, rfl, .inr rfl, rfl, ⟨rfl, rfl⟩, fun h => h.keep rfl rfl rfl fun _ _ => .of_fields rfl⟩

theorem State.unfed_dropConfirm (s : State) : s.Unfed s.dropConfirm :=
  ⟨List.suffix_rfl, rfl, rfl, .inr rfl, rfl, ⟨rfl, rfl⟩, fun _ => State.confirmLaw_of_none rfl rfl⟩

theorem State.unfed_answerScan (s : State) (a : ScanAnswer) : s.Unfed (s.answerScan a) :=
  ⟨List.suffix_rfl, rfl, rfl, .inr rfl, rfl, ⟨rfl, rfl⟩, fun h => h.keep rfl rfl rfl fun _ _ => .of_fields rfl⟩

theorem State.unfed_dropBuffer (s : State) : s.Unfed { s with scan.buffer := none } :=
  ⟨List.suffix_rfl, rfl, rfl, .inl rfl, rfl, ⟨rfl, rfl⟩, fun h => h.keep rfl rfl rfl fun _ _ => .of_fields rfl⟩

theorem State.unfed_refuseHeld (s : State) : s.Unfed s.refuseHeld := by
  unfold State.refuseHeld
  split
  · exact s.unfed_dropBuffer.trans (State.unfed_answerScan _ _)
  · exact .refl s

theorem State.unfed_queueReport (s : State) (r : Report) : s.Unfed (s.queueReport r) := .of_pages rfl rfl rfl ⟨rfl, rfl⟩ rfl

theorem State.unfed_enterHold (s : State) (p : PageNum) (code : ErrorCode) : s.Unfed (s.enterHold p code) :=
  .trans (s.unfed_updPage (.of_fields rfl)) (State.unfed_dropKeys _)

/-- Another page becomes ACTIVE, or none: the confirm-pending record has to go. -/
theorem State.unfed_dropConfirm_of_active (s : State) (a : Option PageNum) : s.Unfed { s with active := a }.dropConfirm :=
  ⟨List.suffix_rfl, rfl, rfl, .inr rfl, rfl, ⟨rfl, rfl⟩, fun _ => State.confirmLaw_of_none rfl rfl⟩

theorem State.unfed_leaveActive (s : State) : s.Unfed s.leaveActive :=
  (State.unfed_dropConfirm_of_active s none).trans (State.unfed_dropKeys _)

/-- R6, R98, R104, R114: promotion releases what was held and drops the confirm-pending record. -/
theorem State.unfed_promote (s : State) : s.Unfed s.promote := by
  cases active : s.active with
  | some a =>
    rw [State.promote_active active]
    exact .refl s
  | none =>
    cases ready : s.ready with
    | nil =>
      rw [State.promote_empty ready]
      exact .refl s
    | cons q rest =>
      rw [State.promote_head active ready]
      exact ⟨List.nil_suffix, rfl, rfl, .inl rfl, rfl, ⟨rfl, rfl⟩, fun _ => State.confirmLaw_of_none rfl rfl⟩

theorem State.unfed_acceptSend (s : State) (p : PageNum) (id : Nat) : s.Unfed (s.acceptSend p id) := by
  have sent : s.Unfed (s.updPage p (·.sent)) := s.unfed_updPage (.of_fields rfl)
  exact ((sent.trans (State.unfed_queueReport _ _)).trans (State.unfed_leaveActive _)).trans (State.unfed_promote _)

theorem State.unfed_ready (s : State) (ready : List PageNum) : s.Unfed { s with ready := ready } :=
  .of_pages rfl rfl rfl ⟨rfl, rfl⟩ rfl

theorem State.unfed_parkKey (s : State) (p : PageNum) : s.Unfed (s.parkKey p) := by
  unfold State.parkKey
  split
  · exact s.unfed_setNotice p _
  · have parked : s.Unfed (s.updPage p fun g => { g with state := .ready }) := s.unfed_updPage (.of_fields rfl)
    exact ((parked.trans (State.unfed_ready _ _)).trans (State.unfed_leaveActive _)).trans (State.unfed_promote _)

/-- R112: a first read is held with a target on the active page. -/
theorem State.unfed_awaitConfirm {f : Field} (characters : List Byte) (active : s.active = some p)
    (named : f ∈ (s.page p).fields) : s.Unfed (s.awaitConfirm p f characters) := by
  have held : s.Unfed { s with
      scan.confirm := some { characters := characters, page := p, field := f.number }
      scan.window := some (s.interp.confirmWindow * 100) } :=
    ⟨List.suffix_rfl, rfl, rfl, .inr rfl, rfl, ⟨rfl, rfl⟩, fun _ =>
      ⟨fun r e => by obtain rfl := Option.some.inj e; exact ⟨active, f, named, rfl⟩, rfl⟩⟩
  exact (held.trans (State.unfed_answerScan _ _)).trans (State.unfed_setNotice _ _ _)

/-- A run that has fed nothing in, beside itself. -/
theorem State.parallel_unfed (s : State) (p : PageNum) : Parallel p fun t t' => t' = t ∧ s.Unfed t where
  alike := by
    rintro t _ ⟨rfl, -⟩
    exact ⟨rfl, rfl, rfl, rfl⟩
  setPage := by
    rintro t _ g ⟨rfl, a⟩ h
    exact ⟨rfl, a.trans (.setPage h.keepsNumbers)⟩
  enterHold := by
    rintro t _ code ⟨rfl, a⟩
    exact ⟨rfl, a.trans (State.unfed_enterHold _ _ _)⟩
  queueReport := by
    rintro t _ r ⟨rfl, a⟩
    exact ⟨rfl, a.trans (State.unfed_queueReport _ _)⟩
  acceptSend := by
    rintro t _ id ⟨rfl, a⟩ -
    exact ⟨rfl, a.trans (State.unfed_acceptSend _ _ _)⟩
  parkKey := by
    rintro t _ ⟨rfl, a⟩ -
    exact ⟨rfl, a.trans (State.unfed_parkKey _ _)⟩
  answerScan := by
    rintro t _ answer ⟨rfl, a⟩
    exact ⟨rfl, a.trans (State.unfed_answerScan _ _)⟩
  dropConfirm := by
    rintro t _ ⟨rfl, a⟩
    exact ⟨rfl, a.trans (State.unfed_dropConfirm _)⟩
  awaitConfirm := by
    rintro t _ f characters ⟨rfl, a⟩ active named
    exact ⟨rfl, a.trans (State.unfed_awaitConfirm characters active named)⟩

theorem State.unfed_routeFrame (active : s.active = some p) (characters : List Byte) :
    s.Unfed (s.routeFrame p characters) :=
  ((s.parallel_unfed p).routeFrame ⟨rfl, .refl s⟩ active characters).2

theorem State.unfed_editKey (s : State) (k : Key) : s.Unfed (s.editKey k) := by
  cases active : s.active with
  | none =>
    rw [State.editKey_of_noPage active]
    split
    · exact .refl s
    · exact .of_pages rfl rfl rfl ⟨rfl, rfl⟩ rfl
  | some p =>
    by_cases reset : k = .reset
    · rw [reset, State.editKey_reset active]
      exact .setPage (.of_fields rfl)
    · by_cases hold : (s.page p).hold = none
      · have noticed := (s.parallel_unfed p).setNotice ⟨rfl, .refl s⟩ none
        rw [State.editKey_of_free active hold]
        exact ((s.parallel_unfed p).actKey noticed active k).2
      · rw [State.editKey_of_hold active hold reset]
        exact .refl s

/-! ### The release of held input -/

theorem State.unfed_releaseScan (s : State) : s.Unfed s.releaseScan := by
  unfold State.releaseScan
  split
  · exact s.unfed_dropBuffer.trans (State.unfed_routeFrame ‹_› _)
  · exact .refl s

theorem State.unfed_popKey {code : Byte} {rest : List Byte} (queue : s.keys.queue = code :: rest) :
    s.Unfed { s with keys.queue := rest } :=
  ⟨queue ▸ List.suffix_cons code rest, rfl, rfl, .inr rfl, rfl, ⟨rfl, rfl⟩,
    fun h => h.keep rfl rfl rfl fun _ _ => .of_fields rfl⟩

/-- R95, R96: the release of the queued keys leaves none. -/
theorem State.unfed_releaseKeys (n : Nat) (s : State) (room : s.keys.queue.length ≤ n) :
    s.Unfed (State.releaseKeys n s) ∧ (State.releaseKeys n s).keys.queue = [] := by
  induction n generalizing s with
  | zero => exact ⟨.refl s, List.length_eq_zero_iff.1 (Nat.le_zero.1 room)⟩
  | succ n ih =>
    unfold State.releaseKeys
    split
    · exact ⟨.refl s, ‹_›⟩
    · rename_i code rest queue
      have acted := State.unfed_editKey { s with keys.queue := rest } (keyOfByte code)
      have fewer := acted.queue.length_le
      rw [queue, List.length_cons] at room
      obtain ⟨released, empty⟩ := ih _ (fewer.trans (Nat.le_of_succ_le_succ room))
      exact ⟨((State.unfed_popKey queue).trans acted).trans released, empty⟩

/-- R95, R104: the held frame is routed on the active page. -/
theorem State.releaseScan_of_some {a : PageNum} {characters : List Byte} (active : s.active = some a)
    (held : s.scan.buffer = some characters) :
    s.releaseScan = { s with scan.buffer := none }.routeFrame a characters := by
  unfold State.releaseScan
  split
  · rename_i active' held'
    obtain rfl := Option.some.inj (active'.symm.trans active)
    obtain rfl := Option.some.inj (held'.symm.trans held)
    rfl
  · rename_i other
    exact (other a characters active held).elim

theorem State.releaseScan_of_none (held : s.scan.buffer = none) : s.releaseScan = s := by
  unfold State.releaseScan
  split
  · rename_i held'
    rw [held] at held'
    cases held'
  · rfl

theorem State.buffer_releaseScan {a : PageNum} (active : s.active = some a) : s.releaseScan.scan.buffer = none := by
  cases held : s.scan.buffer with
  | none => rw [State.releaseScan_of_none held, held]
  | some characters =>
    rw [State.releaseScan_of_some active held]
    exact (State.unfed_routeFrame (s := { s with scan.buffer := none }) active characters).buffer.elim id id

/-- R95: the release leaves nothing held. -/
theorem State.unfed_releaseInput {a : PageNum} (active : s.active = some a) :
    s.Unfed s.releaseInput ∧ s.releaseInput.Unheld := by
  have scan := s.unfed_releaseScan
  obtain ⟨keys, empty⟩ := State.unfed_releaseKeys s.keys.queue.length s.releaseScan scan.queue.length_le
  exact ⟨scan.trans keys, empty, keys.buffer.elim id fun e => e.trans (State.buffer_releaseScan active)⟩

/-! ### Inhibit -/

/-- R90: the ACTIVE page, its mark and the kind of the transaction tell whether there is inhibit. -/
theorem State.inhibited_of_marks {t : State} (active : t.active = s.active)
    (kind : t.interp.txn.bind (·.kind) = s.interp.txn.bind (·.kind))
    (marks : ∀ q, s.active = some q → (t.page q).inFlight = (s.page q).inFlight) : t.inhibited = s.inhibited := by
  unfold State.inhibited
  rw [active, kind]
  split
  · exact marks _ ‹_›
  · exact marks _ ‹_›
  · rfl

/-- R90: a quiet change of the pages leaves inhibit as it is. -/
theorem State.Quiet.inhibited {t : State} (q : s.Quiet t) (txn : t.interp.txn = s.interp.txn) : t.inhibited = s.inhibited :=
  State.inhibited_of_marks q.active (by rw [txn]) fun p _ => (q.pages p).inFlight

@[simp] theorem State.raiseAttention_txn (s : State) (p : PageNum) (cause : Cause) :
    (s.raiseAttention p cause).interp.txn = s.interp.txn := by
  unfold State.raiseAttention
  split <;> rfl

/-! ### Keys and frames -/

theorem State.InputLaw.setNotice (h : s.InputLaw) (p : PageNum) (n : Option Notice) : (s.setNotice p n).InputLaw :=
  h.unfed (s.unfed_setNotice p n) fun i => ((s.quiet_setNotice p n).inhibited rfl).trans i

theorem State.InputLaw.answerScan (h : s.InputLaw) (a : ScanAnswer) : (s.answerScan a).InputLaw :=
  h.unfed (s.unfed_answerScan a) id

/-- R93: a key joins the queue during inhibit, while the setting allows it and there is room. -/
theorem State.InputLaw.queueKey {b : Byte} (h : s.InputLaw) (inhibited : s.inhibited = true)
    (code : keyOfByte b ≠ .reset ∧ keyOfByte b ≠ .attn) : (s.queueKey p b).InputLaw := by
  rw [State.queueKey_eq]
  split
  · exact h.setNotice p _
  · rename_i allowed
    split
    · refine ⟨?_, fun _ => inhibited, ?_, fun off => absurd off allowed, h.buffer, h.confirm, h.window, h.counting,
        h.frame, h.settings⟩
      · simp only [List.length_append, List.length_singleton]
        omega
      · simp only [List.mem_append, List.mem_singleton]
        rintro c (m | rfl)
        · exact h.codes c m
        · exact code
    · exact h.setNotice p _

/-- R92: ATTN during inhibit leaves the inhibit. -/
theorem State.inhibited_editKey_attn (active : s.active = some p) : (s.editKey .attn).inhibited = s.inhibited := by
  by_cases hold : (s.page p).hold = none
  · rw [State.editKey_of_free active hold]
    exact ((State.quiet_raiseAttention _ p .key).inhibited (State.raiseAttention_txn _ _ _)).trans
      ((s.quiet_setNotice p none).inhibited rfl)
  · rw [State.editKey_of_hold active hold (by simp)]

/-- R90 to R94: a key event. -/
theorem State.InputLaw.takeKey (h : s.InputLaw) (b : Byte) : (s.takeKey b).InputLaw := by
  cases inhibited : s.inhibited with
  | false =>
    have taken : s.takeKey b = s.editKey (keyOfByte b) := by
      unfold State.takeKey
      simp only [inhibited, Bool.false_eq_true, if_false]
      split <;> rfl
    rw [taken]
    exact h.unfed (s.unfed_editKey _) (by simp [inhibited])
  | true =>
    obtain ⟨p, active⟩ : ∃ p, s.active = some p := by
      cases active : s.active with
      | none => simp [State.inhibited, active] at inhibited
      | some p => exact ⟨p, rfl⟩
    by_cases reset : keyOfByte b = .reset
    · rw [State.takeKey_reset_of_inhibited active inhibited reset]
      refine h.unfed (s.unfed_dropKeys.trans (State.unfed_editKey _ _)) fun i => ?_
      rw [State.editKey_reset (s := s.dropKeys) active]
      refine (State.inhibited_of_marks (s := s) (t := s.dropKeys.setPage p _) rfl rfl fun q here => ?_).trans i
      obtain rfl := Option.some.inj (active.symm.trans here)
      rw [State.page_setPage_self]
      rfl
    · by_cases attn : keyOfByte b = .attn
      · rw [State.takeKey_attn active b attn]
        exact h.unfed (s.unfed_editKey _) (State.inhibited_editKey_attn active).trans
      · by_cases hold : (s.page p).hold = none
        · rw [State.takeKey_of_inhibited active hold inhibited reset attn]
          exact h.queueKey inhibited ⟨reset, attn⟩
        · rw [State.takeKey_of_hold active hold reset]
          exact h

/-- R101, R103: a frame judged: it is held during inhibit, and else nothing is. -/
theorem State.InputLaw.judgeFrame (h : s.InputLaw) (length : Nat) (characters : List Byte) :
    (s.judgeFrame length characters).InputLaw := by
  by_cases bad : length = 0 ∨ 64 < length
  · rw [State.judgeFrame_of_badLength bad]
    split
    · split
      · exact (h.answerScan _).setNotice _ _
      · exact h.answerScan _
    · exact h.answerScan _
  · have good : 1 ≤ length ∧ length ≤ 64 := by omega
    cases active : s.active with
    | none =>
      rw [State.judgeFrame_of_noPage active]
      exact h.answerScan _
    | some p =>
      by_cases hold : (s.page p).hold = none
      · cases inhibited : s.inhibited with
        | false =>
          rw [State.judgeFrame_of_free good active hold inhibited]
          exact h.unfed (State.unfed_routeFrame active _) (by simp [inhibited])
        | true =>
          rw [State.judgeFrame_of_inhibited good active hold inhibited]
          split
          · exact ⟨h.bound, h.held, h.codes, h.setting, fun _ => inhibited, h.confirm, h.window, h.counting, h.frame,
              h.settings⟩
          · exact h.answerScan _
      · rw [State.judgeFrame_of_hold good active hold]
        exact h.answerScan _

/-- The frame in progress changes, and with it what is kept of it. -/
theorem State.InputLaw.reframe {frame : FrameProgress} {receiving : Option Receiving} (h : s.InputLaw)
    (counting : ∀ n, frame = .counting n → 1 ≤ n ∧ n ≤ 255)
    (kept : receiving.isSome = true ↔ ∃ n, frame = .counting n) :
    State.InputLaw { s with keys.frame := frame, scan.receiving := receiving } :=
  ⟨h.bound, h.held, h.codes, h.setting, h.buffer, h.confirm, h.window, counting, kept, h.settings⟩

/-- R89: a code of the input port. -/
theorem State.InputLaw.takeInputByte (h : s.InputLaw) (b : Byte) : (s.takeInputByte b).InputLaw := by
  have notReceiving (none_ : ¬∃ n, s.keys.frame = .counting n) : s.scan.receiving = none := by
    rw [← h.frame] at none_
    simpa using none_
  unfold State.takeInputByte
  split
  case h_1 frame =>
    split
    · have framed := h.reframe (frame := .lengthAwaited) (receiving := s.scan.receiving) nofun
        (by simp [notReceiving, frame])
      exact framed
    · exact h.takeKey b
  case h_2 frame =>
    split
    · have framed := h.reframe (frame := .absent) (receiving := s.scan.receiving) nofun
        (by simp [notReceiving, frame])
      exact framed.judgeFrame _ _
    · rename_i some_
      refine h.reframe (fun n e => ?_) (by simp)
      obtain rfl := FrameProgress.counting.inj e
      have := b.isLt
      have : b.toNat ≠ 0 := fun zero => some_ (BitVec.eq_of_toNat_eq zero)
      omega
  case h_3 n frame =>
    simp only
    split
    · exact (h.reframe (frame := .absent) nofun (by simp)).judgeFrame _ _
    · refine h.reframe (fun m e => ?_) (by simp)
      obtain rfl := FrameProgress.counting.inj e
      have := h.counting n frame
      omega

theorem State.InputLaw.takeInput (h : s.InputLaw) (codes : List Byte) : (s.takeInput codes).InputLaw := by
  unfold State.takeInput
  induction codes generalizing s with
  | nil => exact h
  | cons b bs ih => exact ih (h.takeInputByte b)

end operator

end Sys2Proof.Machine

namespace Sys2Proof.Machine

/-! ## Orders

An order feeds nothing in; a DROP takes the confirm-pending record with its target. -/

section orders

variable (s : State) (p : PageNum)

theorem State.Unfed.done {s t : State} (h : s.Unfed t) : s.Unfed (OrderOutcome.done t).state := h

theorem State.unfed_updTxn (f : Transaction → Transaction) : s.Unfed (s.updTxn f) := .of_pages rfl rfl rfl ⟨rfl, rfl⟩ rfl

theorem State.unfed_txn (r : Option Transaction) : s.Unfed { s with interp.txn := r } := .of_pages rfl rfl rfl ⟨rfl, rfl⟩ rfl

theorem State.unfed_writeText (kind : Kind) (writePos : Nat) (codes : List Byte) :
    s.Unfed (s.writeText kind p writePos codes).state := by
  unfold State.writeText
  simp only
  split
  · exact s.unfed_updTxn _
  · exact .done (.trans (s.unfed_updPage (.of_fields rfl)) (State.unfed_updTxn _ _))

theorem State.unfed_orderDefine (writePos : Nat) (d : DefineOperands) : s.Unfed (s.orderDefine p writePos d).state := by
  unfold State.orderDefine
  split
  · exact .refl s
  · split
    · exact .refl s
    · split
      · exact .refl s
      · exact .done (s.unfed_updPage fun f hf => ⟨f, mem_insertField.2 (.inr hf), rfl⟩)

/-- R35: a DROP leaves the numbers of the other fields. -/
theorem Page.exists_number_dropField {g : Page} {n m : Nat} (other : m ≠ n) (h : ∃ f ∈ g.fields, f.number = m) :
    ∃ f ∈ (g.dropField n).fields, f.number = m := by
  obtain ⟨f, hf, rfl⟩ := h
  exact ⟨f.unlinked n, Page.mem_dropField.2 ⟨f, hf, other, rfl⟩, rfl⟩

/-- R35 step 3, R37, R114: fields are dropped, and with its target the confirm-pending record. -/
theorem State.unfed_dropConfirmAt {f : Page → Page} {dropped : Nat → Bool}
    (kept : ∀ m, dropped m = false → (∃ x ∈ (s.page p).fields, x.number = m) →
      ∃ x ∈ (f (s.page p)).fields, x.number = m) : s.Unfed ((s.updPage p f).dropConfirmAt p dropped) := by
  unfold State.dropConfirmAt
  split
  · rename_i r record
    split
    · exact ⟨List.suffix_rfl, rfl, rfl, .inr rfl, rfl, ⟨rfl, rfl⟩, fun _ => State.confirmLaw_of_none rfl rfl⟩
    · rename_i stays
      refine ⟨List.suffix_rfl, rfl, rfl, .inr rfl, rfl, ⟨rfl, rfl⟩, fun h => ⟨fun x e => ?_, h.window⟩⟩
      obtain rfl := Option.some.inj (record.symm.trans e)
      obtain ⟨active, target⟩ := h.target r e
      refine ⟨active, ?_⟩
      rw [State.page_updPage]
      split
      · rename_i here
        rw [here] at target
        exact kept _ (by simpa [here] using stays) target
      · exact target
  · rename_i none_
    exact ⟨List.suffix_rfl, rfl, rfl, .inr rfl, rfl, ⟨rfl, rfl⟩,
      fun h => ⟨fun r e => absurd (none_.symm.trans e) nofun, h.window⟩⟩

theorem State.unfed_orderDrop (operand : Byte) : s.Unfed (s.orderDrop p operand).state := by
  unfold State.orderDrop
  split
  · exact .done (s.unfed_dropConfirmAt p (by simp))
  · simp only
    split
    · exact .refl s
    · exact .done (s.unfed_dropConfirmAt p fun m other => Page.exists_number_dropField (by simpa using other))

theorem State.unfed_orderMark (operand code : Byte) : s.Unfed (s.orderMark p operand code).state := by
  unfold State.orderMark
  split
  · exact .refl s
  · split
    · split
      · exact .done (s.unfed_updPage (Page.reworked_updEntry _ _ _).keepsNumbers)
      · exact .refl s
    · exact .refl s

theorem State.unfed_orderUnmodify (operand : Byte) : s.Unfed (s.orderUnmodify p operand).state := by
  unfold State.orderUnmodify
  split
  · exact .done (s.unfed_updPage fun f hf => ⟨f.unmodified, List.mem_map_of_mem hf, rfl⟩)
  · split
    · exact .done (s.unfed_updPage
        (Page.reworked_updField _ _ (change := Field.unmodified) fun _ => rfl).keepsNumbers)
    · exact .refl s

theorem State.unfed_orderChain (operands : List Byte) : s.Unfed (s.orderChain p operands).state := by
  unfold State.orderChain
  split
  · exact .refl s
  · simp only
    split
    · exact .done (s.unfed_updPage (.of_fields rfl))
    · exact .refl s

theorem State.unfed_orderUnchain (operand : Byte) : s.Unfed (s.orderUnchain p operand).state := by
  unfold State.orderUnchain
  split
  · exact .refl s
  · split
    · exact .refl s
    · exact .done (s.unfed_updPage (.of_fields rfl))

theorem State.unfed_orderSelect (operand : Byte) : s.Unfed (s.orderSelect p operand).state := by
  unfold State.orderSelect
  split
  · exact .done (s.unfed_updPage (.of_fields rfl))
  · split
    · exact .refl s
    · split
      · exact .refl s
      · exact .done (s.unfed_updPage (.of_fields rfl))

theorem State.unfed_pageOrder (kind : Kind) (writePos : Nat) (o : OrderCode) (operands : List Byte) :
    s.Unfed (s.pageOrder kind p writePos o operands).state := by
  unfold State.pageOrder
  simp only
  split
  case h_1 =>
    split
    · exact .done (s.unfed_updTxn _)
    · exact .refl s
  case h_2 => exact s.unfed_writeText p kind _ _
  case h_3 =>
    split
    · exact s.unfed_writeText p kind _ _
    · exact .refl s
  case h_4 =>
    split
    · exact s.unfed_writeText p kind _ _
    · exact .refl s
  case h_5 => exact s.unfed_orderDefine p _ _
  case h_6 => exact s.unfed_orderDrop p _
  case h_7 =>
    split
    · exact .done (s.unfed_updPage (.of_fields rfl))
    · exact .refl s
  case h_8 => exact .done (s.unfed_updPage (.of_fields rfl))
  case h_9 => exact s.unfed_orderMark p _ _
  case h_10 => exact s.unfed_orderUnmodify p _
  case h_11 => exact s.unfed_orderChain p _
  case h_12 => exact s.unfed_orderUnchain p _
  case h_13 => exact s.unfed_orderSelect p _
  case h_14 => exact .refl s

theorem State.unfed_replay (orders : List (List Byte)) : s.Unfed (State.replay p s orders).state := by
  induction orders generalizing s with
  | nil => exact .refl s
  | cons order rest ih =>
    cases order with
    | nil => exact ih s
    | cons code operands =>
      unfold State.replay
      split
      · rename_i o t _ _
        have one := s.unfed_pageOrder p .load t.writePos o operands
        split
        · rename_i done
          exact .trans (by rwa [done] at one) (ih _)
        · rename_i skipped
          exact (State.Unfed.trans (by rwa [skipped] at one) (State.unfed_updTxn _ _)).trans (ih _)
        · rename_i failed
          rwa [failed] at one
      · exact ih s

theorem State.unfed_updSlot (n : SlotNum) (f : Slot → Slot) : s.Unfed (s.updSlot n f) := .of_pages rfl rfl rfl ⟨rfl, rfl⟩ rfl

/-- R124: an order that is carried out or recorded. -/
theorem State.unfed_carryOut (t : Transaction) (o : OrderCode) (operands : List Byte) :
    s.Unfed (s.carryOut t o operands).state := by
  unfold State.carryOut
  split
  · split
    · unfold State.recordOrder
      split
      · exact .refl s
      · simp only
        split
        · exact .refl s
        · exact .done (s.unfed_updSlot _ _)
    · exact .refl s
  · split
    · unfold State.orderRecall
      split
      · exact .refl s
      · split
        · exact .refl s
        · exact s.unfed_replay _ _
        · exact .refl s
    · exact s.unfed_pageOrder _ _ _ _ _
  · exact .refl s

end orders

/-! ## Headers -/

section headers

variable (s : State)

/-- The two units, the active page and the settings are the same. -/
def State.SameInput (s t : State) : Prop :=
  t.keys = s.keys ∧ t.scan = s.scan ∧ t.active = s.active ∧
    t.interp.confirmWindow = s.interp.confirmWindow ∧ t.interp.replyLimit = s.interp.replyLimit

theorem State.SameInput.refl : s.SameInput s := ⟨rfl, rfl, rfl, rfl, rfl⟩

variable {s} in
theorem State.SameInput.trans {t u : State} (a : s.SameInput t) (b : t.SameInput u) : s.SameInput u := by
  obtain ⟨a1, a2, a3, a4, a5⟩ := a
  obtain ⟨b1, b2, b3, b4, b5⟩ := b
  exact ⟨b1.trans a1, b2.trans a2, b3.trans a3, b4.trans a4, b5.trans a5⟩

variable {s} in
theorem State.SameInput.unfed {t : State} (a : s.SameInput t) (pages : s.Tended t) : s.Unfed t := by
  obtain ⟨keys, scan, active, settings⟩ := a
  exact .of_same keys scan active settings fun q _ => (pages q).keepsNumbers

theorem State.sameInput_answer (r : Report) : s.SameInput (s.answer r) := by
  rw [State.answer_eq]
  split <;> exact .refl s

theorem State.sameInput_refuse (t : Transaction) (status : Status) (detail : Nat) :
    s.SameInput (s.refuse t status detail) := s.sameInput_answer _

theorem State.sameInput_eraseSlots (slots : List SlotNum) : s.SameInput (State.eraseSlots s slots).1 := by
  induction slots generalizing s with
  | nil => exact .refl s
  | cons n ns ih =>
    refine .trans (t := (s.eraseSlot n).1) ?_ (ih _)
    unfold State.eraseSlot
    split
    · exact .refl s
    · split
      · exact .refl s
      · split <;> exact .refl s

theorem State.sameInput_acceptErase (slots : List Byte) : s.SameInput (s.acceptErase slots).1 := by
  refine (s.sameInput_eraseSlots (slots.filterMap slotOfByte)).trans ?_
  unfold State.acceptErase State.gather
  simp only
  split <;> exact .refl _

variable {s} in
theorem State.sameInput_pauseUnit {u : State} (h : s.pauseUnit = some u) : s.SameInput u := by
  unfold State.pauseUnit at h
  split at h <;> cases h <;> exact .refl _

variable {s} in
theorem State.sameInput_resumeUnit {u : State} (h : s.resumeUnit = some u) : s.SameInput u := by
  unfold State.resumeUnit at h
  split at h
  · split at h <;> cases h <;> exact .refl _
  all_goals cases h

/-- R123: a header that is judged touches neither unit. -/
theorem State.sameInput_judgeHeader (t : Transaction) : s.SameInput (s.judgeHeader t) := by
  unfold State.judgeHeader
  simp only
  split
  · exact s.sameInput_refuse t _ _
  · rename_i k _
    cases k with
    | load | amend | post | reopen | close =>
      simp only
      split
      · exact s.sameInput_refuse t _ _
      · split
        · exact s.sameInput_refuse t _ _
        · exact .refl s
    | restart | setup | query => exact .refl s
    | store =>
      simp only
      split
      · exact s.sameInput_refuse t _ _
      · exact .refl s
      · exact s.sameInput_refuse t _ _
    | erase =>
      simp only
      split
      · exact s.sameInput_refuse t _ _
      · split
        · exact s.sameInput_refuse t _ _
        · split <;> exact s.sameInput_acceptErase _
    | pause =>
      simp only
      split
      · exact s.sameInput_refuse t _ _
      · rename_i u found
        exact (State.sameInput_pauseUnit found).trans (.refl u)
    | resume =>
      simp only
      split
      · exact s.sameInput_refuse t _ _
      · rename_i u found
        exact (State.sameInput_resumeUnit found).trans (.refl u)

end headers

end Sys2Proof.Machine

namespace Sys2Proof.Machine

/-! ## The ends of transactions -/

section ends

variable {s : State} {t : Transaction} {p : PageNum}

theorem State.unfed_answer (s : State) (r : Report) : s.Unfed (s.answer r) :=
  (s.sameInput_answer r).unfed (.of_pages (s.answer_pages r))

theorem State.InputLaw.answer (h : s.InputLaw) (r : Report) : (s.answer r).InputLaw :=
  h.unfed (s.unfed_answer r) (s.inhibited_answer r).trans

theorem State.unfed_closed (s : State) (t : Transaction) (next : InterpState) : s.Unfed (s.closed t next) := by
  have off : s.Unfed { s with interp.txn := none, interp.state := next } := .of_pages rfl rfl rfl ⟨rfl, rfl⟩ rfl
  refine off.trans ?_
  unfold State.closed State.clearMark
  split
  · exact State.unfed_updPage _ (.of_fields rfl)
  · exact .refl _

/-- R126, R127: the close of a transaction; an inhibit that it ends leaves no input held. -/
theorem State.InputLaw.closeTransaction (h : s.InputLaw) (t : Transaction) (next : InterpState) :
    (s.closeTransaction t next).InputLaw := by
  have closed := s.unfed_closed t next
  rw [State.closeTransaction_closed]
  split
  · rename_i inhibited
    obtain ⟨a, active⟩ : ∃ a, s.active = some a := by
      cases active : s.active with
      | none => simp [State.inhibited, active] at inhibited
      | some a => exact ⟨a, rfl⟩
    obtain ⟨pages, frame⟩ := s.closed_frame t next
    obtain ⟨released, empty⟩ := State.unfed_releaseInput (s := s.closed t next) (a := a) (by rw [frame]; exact active)
    exact h.unfed_of_unheld (closed.trans released) empty
  · exact h.unfed closed (absurd · ‹_›)

/-- R90: outside a transaction there is no inhibit. -/
theorem State.PageLaw.free (law : s.PageLaw) (none_ : s.inFlightTxn = none) : s.inhibited = false :=
  State.inhibited_of_unmarked fun a _ => ((State.pageLaw_iff.1 law).2.2.unmarked none_ a).1

theorem State.txn_of_inFlightTxn (h : s.inFlightTxn = some t) : s.interp.txn = some t := by
  unfold State.inFlightTxn at h
  split at h
  · exact h
  · cases h

/-- R90: only an AMEND inhibits while it is in flight; a REOPEN's page is not ACTIVE before its END. -/
theorem State.PageLaw.free_of_kind (law : s.PageLaw) (flying : s.flyingHeader = some t.header)
    (kind : t.kind ≠ some .amend) : s.inhibited = false := by
  obtain ⟨stands, -, flight⟩ := State.pageLaw_iff.1 law
  obtain ⟨marked, -, replied⟩ := flight.named flying
  obtain ⟨x, hx, header⟩ := Option.map_eq_some_iff.1 flying
  have txn := State.txn_of_inFlightTxn hx
  have same := Transaction.kind_congr header.symm
  unfold State.inhibited
  rw [txn, Option.bind_some, ← same]
  split
  · contradiction
  · rename_i p active reopen
    by_contra inhibited
    rw [Bool.not_eq_false] at inhibited
    have awaiting := replied p (.inl reopen) ((marked p).1 inhibited)
    have wasActive := (stands.pages p).active.1 active
    rw [awaiting] at wasActive
    cases wasActive
  · rfl

/-- R2: the release of a page that is not ACTIVE. -/
theorem State.unfed_released (off : s.active ≠ some p) : s.Unfed (s.updPage p (·.released)) :=
  .of_same rfl rfl rfl ⟨rfl, rfl⟩ fun q active => by
    rw [State.page_updPage, if_neg (by rintro rfl; exact off active)]
    exact .of_fields rfl

theorem State.PageLaw.not_active_of_state (law : s.PageLaw) (other : (s.page p).state ≠ .active) : s.active ≠ some p :=
  fun active => other ((law.active p).1 active)

/-- R127 step 1: the effects of an abort. -/
theorem State.InputLaw.abortEffects (h : s.InputLaw) (law : s.PageLaw) (flying : s.flyingHeader = some t.header) :
    (s.abortEffects t).InputLaw := by
  obtain ⟨-, loading, -⟩ := (State.pageLaw_iff.1 law).2.2.named flying
  unfold State.abortEffects
  split
  case h_1 q kind page =>
    have off : s.active ≠ some q := law.not_active_of_state (by simp [(loading q).2 ⟨kind, page⟩])
    exact h.unfed (State.unfed_released off) (by simp [law.free_of_kind flying (by simp [kind])])
  case h_2 =>
    split
    · exact h.unfed (s.unfed_updSlot _ _) id
    · exact h
  case h_3 => exact h

theorem clampWindow_range (b : Byte) : 1 ≤ clampWindow b ∧ clampWindow b ≤ 50 := by
  rw [clampWindow_eq]
  omega

theorem State.unfed_returnToHead (s : State) (p : PageNum) {f : Page → Page} (fields : ∀ g, (f g).fields = g.fields) :
    s.Unfed (s.returnToHead p f) :=
  .trans (s.unfed_updPage (f := fun g => f { g with state := .ready, timer := .absent }) (.of_fields (fields _)))
    (.trans (State.unfed_ready _ _) (State.unfed_promote _))

theorem State.unfed_loadEnd (s : State) (p : PageNum) : s.Unfed (s.loadEnd p) :=
  .trans (s.unfed_updPage (f := fun g => { g with state := .ready }) (.of_fields rfl))
    (.trans (State.unfed_ready _ _) (State.unfed_promote _))

/-- R15: RESTART drops what is held. -/
theorem State.unfed_restartEnd (s : State) : s.Unfed s.restartEnd := by
  have cleared : s.Unfed s.clearReports := .of_pages rfl rfl rfl ⟨rfl, rfl⟩ rfl
  refine ((cleared.trans (State.unfed_refuseHeld _)).trans (State.unfed_dropConfirm _)).trans ?_
  exact ⟨List.nil_suffix, rfl, rfl, .inr rfl, rfl, ⟨rfl, rfl⟩, fun _ => State.confirmLaw_of_none rfl rfl⟩

/-- R140: SETUP while no input is held. -/
theorem State.InputLaw.applySetup (h : s.InputLaw) (empty : s.Unheld) (limit window typeAhead : Byte) :
    (s.applySetup limit window typeAhead).InputLaw := by
  obtain ⟨-, confirm, frame, -⟩ := State.inputLaw_iff.1 h
  have still : (s.applySetup limit window typeAhead).Unheld := empty
  refine State.inputLaw_iff.2 ⟨still.heldLaw, ⟨confirm.target, confirm.window⟩, ⟨frame.counting, frame.receiving⟩, ?_⟩
  exact ⟨(clampWindow_range window).1, (clampWindow_range window).2, Nat.le_of_lt_succ limit.isLt⟩

/-- R126 step 1: the effects of an END. -/
theorem State.InputLaw.endEffects (h : s.InputLaw) (law : s.PageLaw) (flying : s.flyingHeader = some t.header) :
    (s.endEffects t).InputLaw := by
  obtain ⟨-, -, replied⟩ := (State.pageLaw_iff.1 law).2.2.named flying
  have outside {u : State} {k : Kind} (kind : t.kind = some k) (other : k ≠ .amend) (a : s.Unfed u) : u.InputLaw :=
    h.unfed a (by simp [law.free_of_kind flying (by simp [kind, other])])
  unfold State.endEffects
  simp only
  split
  case h_1 p kind _ => exact outside kind (by simp) (s.unfed_loadEnd p)
  case h_2 p kind _ => exact outside kind (by simp) (s.unfed_returnToHead p fun _ => rfl)
  case h_3 p kind page =>
    have off : s.active ≠ some p := law.not_active_of_state (by simp [replied p (.inr kind) page])
    exact outside kind (by simp) (State.unfed_released off)
  case h_4 kind =>
    exact h.applySetup (h.heldLaw.unheld (law.free_of_kind flying (by simp [kind]))) _ _ _
  case h_5 kind => exact outside kind (by simp) s.unfed_restartEnd
  case h_6 kind =>
    split
    · exact outside kind (by simp) (s.unfed_updSlot _ _)
    · exact h
  case h_7 => exact h

/-- R126: END. -/
theorem State.InputLaw.reachEnd (h : s.InputLaw) (law : s.PageLaw) (flying : s.flyingHeader = some t.header) :
    (s.reachEnd t).InputLaw := ((h.endEffects law flying).answer _).closeTransaction t _

/-- R127: an abort. -/
theorem State.InputLaw.abort (h : s.InputLaw) (law : s.PageLaw) (flying : s.flyingHeader = some t.header)
    (status : Status) (detail : Nat) (next : InterpState) : (s.abort t status detail next).InputLaw :=
  ((h.abortEffects law flying).answer _).closeTransaction t _

end ends

/-! ## The stream port -/

section stream

variable {s : State} {t : Transaction}

/-- Events keep the law of Page Control (R4 to R24). -/
theorem State.Reaches.pageLaw {u : State} (run : s.Reaches u) (law : s.PageLaw) : u.PageLaw := by
  induction run with
  | refl => exact law
  | tail _ event ih => exact event.pageLaw ih

/-- R90: the transaction in flight and the active page tell whether there is inhibit. -/
theorem State.PageLaw.inhibited_congr {u : State} (law : s.PageLaw) (law' : u.PageLaw) (active : u.active = s.active)
    (header : u.flyingHeader = s.flyingHeader) : u.inhibited = s.inhibited := by
  have flight := (State.pageLaw_iff.1 law).2.2
  have flight' := (State.pageLaw_iff.1 law').2.2
  cases flying : s.inFlightTxn with
  | none =>
    have none_ : u.inFlightTxn = none := by simpa [State.flyingHeader, flying] using header
    rw [law.free flying, law'.free none_]
  | some x =>
    have flying' : s.flyingHeader = some x.header := by simp [State.flyingHeader, flying]
    obtain ⟨marked, -, -⟩ := flight.named flying'
    obtain ⟨marked', -, -⟩ := flight'.named (header.trans flying')
    obtain ⟨y, hy, same⟩ := Option.map_eq_some_iff.1 (header.trans flying')
    refine State.inhibited_of_marks active ?_ fun q _ => Bool.eq_iff_iff.2 ((marked' q).trans (marked q).symm)
    rw [State.txn_of_inFlightTxn flying, State.txn_of_inFlightTxn hy, Option.bind_some, Option.bind_some,
      Transaction.kind_congr same]

/-- A quiet change that feeds nothing in. -/
theorem State.InputLaw.quiet {u : State} (h : s.InputLaw) (law : s.PageLaw) (q : s.Quiet u) (a : s.Unfed u) : u.InputLaw :=
  h.unfed a (law.inhibited_congr (law.quiet q) q.active q.header).trans

/-- Outside a transaction the interpreter changes without the two units. -/
theorem State.InputLaw.interp (h : s.InputLaw) (law : s.PageLaw) (none_ : s.inFlightTxn = none) (i : InterpState)
    (r : Option Transaction) : State.InputLaw { s with interp.state := i, interp.txn := r } :=
  h.unfed (.of_pages rfl rfl rfl ⟨rfl, rfl⟩ rfl) (by simp [law.free none_])

theorem State.inFlightTxn_of_flyingHeader (h : s.flyingHeader = none) : s.inFlightTxn = none := by
  simpa [State.flyingHeader] using h

theorem State.InputLaw.takeHeaderByte (h : s.InputLaw) (law : s.PageLaw) (hs : s.interp.state = .header) (b : Byte) :
    (s.takeHeaderByte t b).InputLaw := by
  have none_ : s.inFlightTxn = none := State.inFlightTxn_of_state (by simp [hs])
  unfold State.takeHeaderByte
  simp only
  split
  · exact h.unfed ((s.sameInput_judgeHeader _).unfed (s.tended_judgeHeader _)) (by simp [law.free none_])
  · exact h.unfed (s.unfed_txn _) (by simp [law.free none_])

theorem State.InputLaw.takeOrderCode (h : s.InputLaw) (law : s.PageLaw) (b : Byte) (hs : s.interp.state = .orders)
    (ht : s.interp.txn = some t) : (s.takeOrderCode t b).InputLaw := by
  have flying : s.flyingHeader = some t.header := State.flyingHeader_of_orders hs ht
  unfold State.takeOrderCode
  split
  · exact h.reachEnd law flying
  · split
    · have none_ := State.inFlightTxn_of_flyingHeader
        (s := s.abort t .aborted (nextIndex t.index) .header) (State.flyingHeader_closeTransaction _ _ _)
      exact (h.abort law flying _ _ _).interp ((State.reaches_abort flying _ _ _).pageLaw law) none_ _ _
    · simp only
      split
      · split
        · exact h.quiet law (State.quiet_record hs ht (by rfl)) (s.unfed_txn _)
        · exact h.abort law (t := { t with index := nextIndex t.index }) flying _ _ _
      · exact h.abort law (t := { t with index := nextIndex t.index }) flying _ _ _

/-- R124, R125, R127: what an order of the transaction in flight came to. -/
theorem State.InputLaw.settleOrder {o : OrderOutcome} (h : s.InputLaw) (law : s.PageLaw)
    (flying : s.flyingHeader = some t.header) (q : s.Quiet o.state) (a : s.Unfed o.state) :
    (State.settleOrder t o).InputLaw := by
  cases o with
  | done u => exact h.quiet law (q.trans (State.quiet_clearOrder _)) (a.trans (State.unfed_updTxn _ _))
  | skipped u =>
    exact h.quiet law ((q.trans (State.quiet_skipOrder _)).trans (State.quiet_clearOrder _))
      ((a.trans (State.unfed_updTxn _ _)).trans (State.unfed_updTxn _ _))
  | failed status u => exact (h.quiet law q a).abort (law.quiet q) (q.header.trans flying) _ _ _

theorem State.InputLaw.takeOperand (h : s.InputLaw) (law : s.PageLaw) (b : Byte) (hs : s.interp.state = .orders)
    (ht : s.interp.txn = some t) : (s.takeOperand t b).InputLaw := by
  have flying : s.flyingHeader = some t.header := State.flyingHeader_of_orders hs ht
  unfold State.takeOperand
  simp only
  split
  · exact h
  · split
    · exact h.quiet law (State.quiet_record hs ht (by rfl)) (s.unfed_txn _)
    · exact h.abort law (t := { t with order := t.order ++ [b] }) flying _ _ _
    · exact h.settleOrder law (t := { t with order := t.order ++ [b] }) flying
        (.trans (State.quiet_record hs ht (by rfl)) (State.quiet_carryOut _ _ _ _))
        ((s.unfed_txn _).trans (State.unfed_carryOut _ _ _ _))

/-- R121 to R128: a byte that the interpreter takes. -/
theorem State.InputLaw.interpretByte (h : s.InputLaw) (law : s.PageLaw) (b : Byte) : (s.interpretByte b).InputLaw := by
  unfold State.interpretByte
  split
  case h_1 hs =>
    split
    · exact h.interp law (State.inFlightTxn_of_state (by simp [hs])) _ _
    · exact h
  case h_2 hs =>
    have none_ : s.inFlightTxn = none := State.inFlightTxn_of_state (by simp [hs])
    split
    · exact h.interp law none_ .between s.interp.txn
    · split
      · exact h.interp law none_ _ _
      · exact h
  case h_3 hs ht => exact h.takeHeaderByte law hs b
  case h_4 hs ht =>
    split
    · exact h.takeOrderCode law b hs ht
    · exact h.takeOperand law b hs ht
  case h_5 => exact h
  case h_6 => exact h

theorem State.InputLaw.takeStream (h : s.InputLaw) (law : s.PageLaw) (bytes : List Byte) :
    (s.takeStream bytes).InputLaw := by
  induction bytes generalizing s with
  | nil => exact h
  | cons b bs ih =>
    rw [State.takeStream_cons]
    unfold State.takeStreamByte
    split
    · exact ih h law
    · exact ih (h.interpretByte law b) ((s.reaches_interpretByte b).pageLaw law)

end stream

end Sys2Proof.Machine

namespace Sys2Proof.Machine

/-! ## Freed report entries

The hand-over of a freed entry reaches the interpreter's stalled report, the report queue and the attention pending sets. -/

/-- What a hand-over leaves: the input, the ready queue, the transaction, and of each page all but its attentions. -/
structure State.Handed (s t : State) : Prop where
  input : s.SameInput t
  ready : t.ready = s.ready
  txn : t.interp.txn = s.interp.txn
  page : ∀ q, ∃ set, t.page q = { s.page q with attention := set }

section freed

variable {s t u : State}

theorem State.Handed.refl (s : State) : s.Handed s := ⟨.refl s, rfl, rfl, fun q => ⟨(s.page q).attention, rfl⟩⟩

theorem State.Handed.trans (a : s.Handed t) (b : t.Handed u) : s.Handed u where
  input := a.input.trans b.input
  ready := b.ready.trans a.ready
  txn := b.txn.trans a.txn
  page q := by
    obtain ⟨x, hx⟩ := a.page q
    obtain ⟨y, hy⟩ := b.page q
    exact ⟨y, by rw [hy, hx]⟩

theorem State.handed_handFreed (s : State) : s.Handed s.handFreed := by
  have outside {v : State} (input : s.SameInput v) (ready : v.ready = s.ready) (txn : v.interp.txn = s.interp.txn)
      (pages : v.pages = s.pages) : s.Handed v :=
    ⟨input, ready, txn, fun q => ⟨(s.page q).attention, by simp only [State.page, pages]⟩⟩
  unfold State.handFreed
  split
  · exact outside (.refl s) rfl rfl rfl
  · exact outside (.refl s) rfl rfl rfl
  · rename_i p cause _
    refine ⟨.refl s, rfl, rfl, fun q => ?_⟩
    simp only [State.page_updPage, State.page_queueReport]
    split
    · subst_vars
      exact ⟨_, rfl⟩
    · exact ⟨_, rfl⟩
  · exact .refl s

theorem State.handed_handFreedTimes (n : Nat) (s : State) : s.Handed (State.handFreedTimes n s) := by
  induction n generalizing s with
  | zero => exact .refl s
  | succ n ih => exact s.handed_handFreed.trans (ih _)

theorem State.Handed.unfed (a : s.Handed t) : s.Unfed t := by
  obtain ⟨keys, scan, active, settings⟩ := a.input
  refine .of_same keys scan active settings fun q _ => ?_
  obtain ⟨set, page⟩ := a.page q
  exact .of_fields (by rw [page])

theorem State.Handed.inhibited (a : s.Handed t) : t.inhibited = s.inhibited := by
  obtain ⟨-, -, active, -⟩ := a.input
  refine State.inhibited_of_marks active (by rw [a.txn]) fun q _ => ?_
  obtain ⟨set, page⟩ := a.page q
  rw [page]

/-! ## Report bytes -/

theorem State.sameInput_takeReportByte (s : State) : s.SameInput s.takeReportByte := by
  unfold State.takeReportByte
  split
  · exact .refl s
  · split
    · exact .refl s
    · rename_i r rest _
      simp only
      split
      · exact .refl s
      · refine .trans ?_ (State.handed_handFreed _).input
        cases r with
        | entry e => exact .refl s
        | attention | completion | status | eraseDone | start => exact .refl s

theorem State.flyingHeader_handFreed (s : State) : s.handFreed.flyingHeader = s.flyingHeader := by
  simp only [State.flyingHeader, State.inFlightTxn_handFreed]

theorem State.flyingHeader_takeReportByte (s : State) : s.takeReportByte.flyingHeader = s.flyingHeader := by
  unfold State.takeReportByte
  split
  · rfl
  · split
    · rfl
    · rename_i r rest _
      simp only
      split
      · rfl
      · rw [State.flyingHeader_handFreed]
        cases r with
        | entry e => rfl
        | attention | completion | status | eraseDone | start => rfl

/-- R146: the taking of a report byte. -/
theorem State.InputLaw.takeReportByte (h : s.InputLaw) (law : s.PageLaw) : s.takeReportByte.InputLaw := by
  have input := s.sameInput_takeReportByte
  obtain ⟨-, -, active, -⟩ := input
  exact h.unfed (s.sameInput_takeReportByte.unfed s.tended_takeReportByte)
    (law.inhibited_congr law.takeReportByte active s.flyingHeader_takeReportByte).trans

/-! ## The erase unit -/

theorem State.sameInput_handResult (s : State) (result : List (SlotNum × EraseOutcome)) :
    s.SameInput (s.handResult result) := by
  unfold State.handResult
  split <;> exact .refl s

theorem State.sameInput_nextSlot (s : State) : s.SameInput s.nextSlot := by
  unfold State.nextSlot
  split
  · exact .refl s
  · exact State.sameInput_handResult _ _

theorem State.sameInput_restUnit (s : State) : s.SameInput s.restUnit := by
  unfold State.restUnit
  split
  · exact .refl s
  · exact State.sameInput_handResult _ _

/-- R170, R172: the end of an attempt touches neither unit. -/
theorem State.sameInput_endAttempt (s : State) (ending : Sys2Proof.Ending) : s.SameInput (s.endAttempt ending) := by
  unfold State.endAttempt
  split
  · exact .refl s
  · simp only
    split
    · exact State.sameInput_nextSlot (s.passSlot _)
    · split
      · exact .refl s
      · exact State.sameInput_nextSlot (s.giveUpSlot _)
    · exact .refl s
    · exact State.sameInput_restUnit (s.passSlot _)
    · split
      · exact .refl s
      · exact State.sameInput_restUnit (s.giveUpSlot _)
    all_goals exact .refl s

theorem State.InputLaw.endAttempt (h : s.InputLaw) (law : s.PageLaw) (ending : Sys2Proof.Ending) :
    (s.endAttempt ending).InputLaw :=
  h.quiet law (s.quiet_endAttempt ending) ((s.sameInput_endAttempt ending).unfed (.of_pages (s.endAttempt_pages ending)))

theorem State.InputLaw.endGathering (h : s.InputLaw) (law : s.PageLaw) : s.endGathering.InputLaw := by
  have input : s.SameInput s.endGathering := by
    unfold State.endGathering
    split <;> exact .refl s
  exact h.quiet law s.quiet_endGathering (input.unfed (.of_pages s.endGathering_pages))

/-! ## Expiries and the passing of time -/

/-- R6: promotion waits while a page is ACTIVE, and so while there is inhibit. -/
theorem State.inhibited_promote (same : t.inhibited = s.inhibited) (inhibited : s.inhibited = true) :
    t.promote.inhibited = true := by
  rw [← same] at inhibited
  cases active : t.active with
  | none => simp [State.inhibited, active] at inhibited
  | some a => rwa [State.promote_active active]

theorem State.inhibited_returnToHead {p : PageNum} {f : Page → Page} (marks : ∀ g, (f g).inFlight = g.inFlight)
    (inhibited : s.inhibited = true) : (s.returnToHead p f).inhibited = true := by
  refine State.inhibited_promote (s := s) (State.inhibited_of_marks rfl rfl fun q _ => ?_) inhibited
  have page := State.page_of_updPage (s := s) (p := p) (f := fun g => f { g with state := .ready, timer := .absent }) rfl q
  refine (congrArg Page.inFlight page).trans ?_
  split
  · subst_vars
    exact marks _
  · rfl

theorem State.InputLaw.expireReply (h : s.InputLaw) (p : PageNum) : (s.expireReply p).InputLaw := by
  unfold State.expireReply
  split
  · exact h.unfed (s.unfed_returnToHead p fun _ => rfl) (State.inhibited_returnToHead fun _ => rfl)
  · exact h

theorem State.InputLaw.expireConfirm (h : s.InputLaw) (law : s.PageLaw) : s.expireConfirm.InputLaw := by
  refine h.quiet law s.quiet_expireConfirm ?_
  unfold State.expireConfirm
  split
  · exact .refl s
  · simp only
    split
    · exact s.unfed_dropConfirm.trans (State.unfed_setNotice _ _ _)
    · exact s.unfed_dropConfirm

theorem State.InputLaw.expire (h : s.InputLaw) (law : s.PageLaw) (d : Due) : (s.expire d).InputLaw := by
  cases d with
  | reply p => exact h.expireReply p
  | confirm => exact h.expireConfirm law
  | gathering => exact h.endGathering law

/-- One ms feeds nothing in: the confirm window runs down with its record. -/
theorem State.unfed_tick (s : State) : s.Unfed s.tick := by
  have ticked := s.tended_foldl Page.tended_tick allPages
  obtain ⟨pages, frame⟩ := State.foldl_updPage_eq Page.tick allPages s
  unfold State.tick
  simp only [frame] at ticked ⊢
  exact ⟨List.suffix_rfl, rfl, rfl, .inr rfl, rfl, ⟨rfl, rfl⟩, fun confirm =>
    confirm.keep rfl (by simp) rfl fun q _ => (ticked q).keepsNumbers⟩

/-- With no command waiting a step is an expiry or one ms that passes (log entry 6). -/
theorem State.InputLaw.idle (h : s.InputLaw) (law : s.PageLaw) : s.idle.InputLaw := by
  unfold State.idle
  split
  · exact h.quiet law s.quiet_tick s.unfed_tick
  · exact h.expire law _
  · have counted : s.Quiet { s with choices := s.choices + 1 } := .of_same rfl rfl rfl rfl rfl rfl
    exact (h.quiet law counted (.of_pages rfl rfl rfl ⟨rfl, rfl⟩ rfl)).expire (law.quiet counted) _

/-! ## The resets -/

theorem State.settingLaw_reset : State.reset.SettingLaw := by
  simp [State.SettingLaw, State.reset]

theorem State.inputLaw_lineReset (s : State) : s.lineReset.InputLaw := by
  have empty : s.lineReset.Unheld := ⟨rfl, rfl⟩
  refine State.inputLaw_iff.2 ⟨empty.heldLaw, State.confirmLaw_of_none rfl rfl, ⟨nofun, ?_⟩, ?_⟩
  · exact ⟨nofun, nofun⟩
  · simpa only [State.SettingLaw, State.lineReset] using State.settingLaw_reset

theorem State.unfed_emptyReports (s : State) : s.Unfed s.emptyReports := .of_pages rfl rfl rfl ⟨rfl, rfl⟩ rfl

theorem State.unfed_returnSending (s : State) : s.Unfed s.returnSending := by
  obtain ⟨pages, frame, page⟩ := s.returnSending_eq
  have returned : s.Unfed { s with pages := pages, ready := s.sendingPages ++ s.ready } := by
    refine .of_same rfl rfl rfl ⟨rfl, rfl⟩ fun q _ => .of_fields ((congrArg Page.fields (page q)).trans ?_)
    unfold Page.unsentReturn
    split <;> rfl
  rw [frame]
  exact returned.trans (State.unfed_promote _)

theorem State.inhibited_returnSending (inhibited : s.inhibited = true) : s.returnSending.inhibited = true := by
  obtain ⟨pages, frame, page⟩ := s.returnSending_eq
  rw [frame]
  refine State.inhibited_promote (s := s) (State.inhibited_of_marks rfl rfl fun q _ => ?_) inhibited
  refine (congrArg Page.inFlight (page q)).trans ?_
  unfold Page.unsentReturn
  split <;> rfl

/-- R157: a stream reset ends the inhibit of the transaction that it cuts short. -/
theorem State.InputLaw.streamReset (h : s.InputLaw) (law : s.PageLaw) : s.streamEmptied.endCutShort.InputLaw := by
  have freed (u : State) : u.emptyReports.Unfed (State.handFreedTimes 8 u.emptyReports.returnSending) :=
    u.emptyReports.unfed_returnSending.trans (State.handed_handFreedTimes 8 _).unfed
  have flying := s.inFlightTxn_streamEmptied
  have unstalled (u : State) : u.Unfed { u with interp.stalled := none } := .of_pages rfl rfl rfl ⟨rfl, rfl⟩ rfl
  unfold State.endCutShort
  cases cut : s.inFlightTxn with
  | some t =>
    rw [flying, cut]
    have aborted := h.abortEffects (t := t) law (by simp [State.flyingHeader, cut])
    have short : s.cutShort.InputLaw := by
      unfold State.cutShort
      rw [cut]
      exact aborted.unfed (unstalled _) id
    refine State.InputLaw.closeTransaction ?_ t .between
    exact (short.unfed s.cutShort.unfed_emptyReports id).unfed (freed _) fun inhibited =>
      (State.handed_handFreedTimes 8 _).inhibited.trans (State.inhibited_returnSending inhibited)
  | none =>
    rw [flying, cut]
    have short : s.Unfed s.cutShort := by
      unfold State.cutShort
      rw [cut]
      exact unstalled s
    have emptied : s.Unfed s.streamEmptied := (short.trans s.cutShort.unfed_emptyReports).trans (freed _)
    exact h.unfed (emptied.trans (.of_pages rfl rfl rfl ⟨rfl, rfl⟩ rfl)) (by simp [law.free cut])

/-! ## Every step -/

/-- Whatever a command does, it keeps the law of held input. -/
theorem State.InputLaw.exec {c : Instr} (h : s.InputLaw) (law : s.PageLaw) (run : exec c s = .next t) : t.InputLaw := by
  by_cases stream : onStreamPort c = true
  · obtain ⟨bytes, e⟩ := exec_of_onStreamPort stream s
    cases e.symm.trans run
    exact h.takeStream law bytes
  · cases key : keyCode c with
    | some b =>
      cases (exec_of_keyCode key s).symm.trans run
      exact h.takeInput [b]
    | none =>
      cases c with
      | resetLine => cases run; exact s.inputLaw_lineReset
      | streamReset => cases run; exact h.streamReset law
      | reportByteTaken => cases run; exact h.takeReportByte law
      | scanFrame length characters => cases run; exact h.takeInput _
      | scanAnswerByteTaken =>
        cases run
        refine h.quiet law s.quiet_takeAnswerByte ?_
        unfold State.takeAnswerByte
        split
        · exact .of_pages rfl rfl rfl ⟨rfl, rfl⟩ rfl
        · exact ⟨List.suffix_rfl, rfl, rfl, .inr rfl, rfl, ⟨rfl, rfl⟩,
            fun confirm => confirm.keep rfl rfl rfl fun _ _ => .of_fields rfl⟩
      | rowRequest row => cases run; exact h.unfed (.of_pages rfl rfl rfl ⟨rfl, rfl⟩ rfl) id
      | cursorRequest => cases run; exact h.unfed (.of_pages rfl rfl rfl ⟨rfl, rfl⟩ rfl) id
      | replyTimerExpiry p => cases run; exact h.expireReply p
      | confirmWindowExpiry => cases run; exact h.expireConfirm law
      | gatheringWindowExpiry => cases run; exact h.endGathering law
      | attemptEnd ending => cases run; exact h.endAttempt law ending
      | attemptStopped ending => cases run; exact h.endAttempt law ending
      | _ => simp [onStreamPort, keyCode] at stream key

end freed

/-- Settles O9: a step feeds nothing in, or takes a code of the input port, or ends an inhibit. -/
theorem stepKeepsInputLaw : Obligations.StepKeepsInputLaw := by
  intro s t law h run
  unfold step at run
  split at run
  · cases run
    exact h.idle law
  · rename_i rest _
    have taken : s.Quiet { s with pending := rest } := .of_same rfl rfl rfl rfl rfl rfl
    exact (h.quiet law taken (.of_pages rfl rfl rfl ⟨rfl, rfl⟩ rfl)).exec (law.quiet taken) run

end Sys2Proof.Machine

/-! # Keys and a scan held during an AMEND

What was held acts when the AMEND ends (R95 to R97). The release reads neither the transaction nor the interpreter's state,
and one more key at the tail of the queue is in nobody's way: both are said with two runs side by side. -/

namespace Sys2Proof.Machine

/-! ## A page that leaves ACTIVE -/

/-- Page p becomes g and leaves ACTIVE, the ready queue is as given, and promotion follows (R6, R98, R114). -/
def State.departed (s : State) (p : PageNum) (g : Page) (ready : List PageNum) : State :=
  { s.setPage p g with ready := ready }.leaveActive.promote

section departed

variable {s : State} {p : PageNum}

/-- R17: an accepted SEND. -/
theorem State.acceptSend_eq (s : State) (p : PageNum) (id : Nat) : s.acceptSend p id =
    (s.queueReport (.entry (entryReportOf p (s.page p).sent id))).departed p (s.page p).sent s.ready := by
  have sent : (s.updPage p (·.sent)).page p = (s.page p).sent := by simp
  have accepted : s.acceptSend p id =
      State.departed (s.queueReport (.entry (entryReportOf p ((s.updPage p (·.sent)).page p) id)))
        p (s.page p).sent s.ready := rfl
  rw [accepted, sent]

/-- R7: PARK with no page READY. -/
theorem State.parkKey_of_noNext (none_ : s.ready = []) : s.parkKey p = s.setNotice p (some .noNext) := by
  simp only [State.parkKey, none_]

/-- R7: PARK with a page READY. -/
theorem State.parkKey_of_next (some_ : s.ready ≠ []) :
    s.parkKey p = s.departed p { s.page p with state := .ready } (s.ready ++ [p]) := by
  unfold State.parkKey
  split
  · contradiction
  · rfl

end departed

/-! ## What a key and a frame do not read -/

/-- A state with another transaction and another state of the interpreter. -/
def State.recorded (s : State) (i : InterpState) (r : Option Transaction) : State :=
  { s with interp.state := i, interp.txn := r }

section recorded

variable {s : State} {p : PageNum} {i : InterpState} {r : Option Transaction}

theorem State.promote_recorded (s : State) : (s.recorded i r).promote = s.promote.recorded i r := by
  cases active : s.active with
  | some a => rw [State.promote_active active, State.promote_active (s := s.recorded i r) active]
  | none =>
    cases ready : s.ready with
    | nil => rw [State.promote_empty ready, State.promote_empty (s := s.recorded i r) ready]
    | cons q rest =>
      rw [State.promote_head active ready, State.promote_head (s := s.recorded i r) active ready]
      rfl

theorem State.departed_recorded (s : State) (p : PageNum) (g : Page) (ready : List PageNum) :
    (s.recorded i r).departed p g ready = (s.departed p g ready).recorded i r := by
  have left : { (s.recorded i r).setPage p g with ready := ready }.leaveActive =
      { s.setPage p g with ready := ready }.leaveActive.recorded i r := rfl
  unfold State.departed
  rw [left, State.promote_recorded]

theorem State.parkKey_recorded (s : State) (p : PageNum) : (s.recorded i r).parkKey p = (s.parkKey p).recorded i r := by
  by_cases ready : s.ready = []
  · rw [State.parkKey_of_noNext ready, State.parkKey_of_noNext (s := s.recorded i r) ready]
    rfl
  · rw [State.parkKey_of_next ready, State.parkKey_of_next (s := s.recorded i r) ready]
    exact State.departed_recorded _ _ _ _

/-- Two runs with different transactions. -/
theorem parallel_recorded (p : PageNum) (i : InterpState) (r : Option Transaction) :
    Parallel p fun s s' => s' = s.recorded i r where
  alike := by
    rintro s _ rfl
    exact ⟨rfl, rfl, rfl, rfl⟩
  setPage := by
    rintro s _ g rfl -
    rfl
  enterHold := by
    rintro s _ code rfl
    rfl
  queueReport := by
    rintro s _ report rfl
    rfl
  acceptSend := by
    rintro s _ id rfl -
    exact State.departed_recorded (s.queueReport _) p (s.page p).sent s.ready
  parkKey := by
    rintro s _ rfl -
    exact s.parkKey_recorded p
  answerScan := by
    rintro s _ a rfl
    rfl
  dropConfirm := by
    rintro s _ rfl
    rfl
  awaitConfirm := by
    rintro s _ f characters rfl - -
    rfl

theorem State.editKey_recorded (s : State) (k : Key) : (s.recorded i r).editKey k = (s.editKey k).recorded i r := by
  cases active : s.active with
  | none =>
    rw [State.editKey_of_noPage active, State.editKey_of_noPage (s := s.recorded i r) active]
    split <;> rfl
  | some p =>
    by_cases reset : k = .reset
    · rw [reset, State.editKey_reset active, State.editKey_reset (s := s.recorded i r) active]
      rfl
    · by_cases hold : (s.page p).hold = none
      · rw [State.editKey_of_free active hold, State.editKey_of_free (s := s.recorded i r) active hold]
        exact (parallel_recorded p i r).actKey ((parallel_recorded p i r).setNotice rfl none) active k
      · rw [State.editKey_of_hold active hold reset, State.editKey_of_hold (s := s.recorded i r) active hold reset]

theorem State.releaseScan_recorded (s : State) : (s.recorded i r).releaseScan = s.releaseScan.recorded i r := by
  unfold State.releaseScan
  rw [show (s.recorded i r).active = s.active from rfl, show (s.recorded i r).scan = s.scan from rfl]
  split
  · rename_i p characters active _
    exact (parallel_recorded p i r).routeFrame (s := { s with scan.buffer := none }) rfl active characters
  · rfl

theorem State.releaseKeys_recorded (n : Nat) (s : State) :
    State.releaseKeys n (s.recorded i r) = (State.releaseKeys n s).recorded i r := by
  induction n generalizing s with
  | zero => rfl
  | succ n ih =>
    simp only [State.releaseKeys, show (s.recorded i r).keys = s.keys from rfl]
    cases s.keys.queue with
    | nil => rfl
    | cons code rest =>
      have acted := State.editKey_recorded (i := i) (r := r) { s with keys.queue := rest } (keyOfByte code)
      exact .trans (congrArg (State.releaseKeys n) acted) (ih _)

/-- R95: the release of held input does not read the transaction. -/
theorem State.releaseInput_recorded (s : State) : (s.recorded i r).releaseInput = s.releaseInput.recorded i r := by
  unfold State.releaseInput
  rw [State.releaseScan_recorded]
  exact State.releaseKeys_recorded _ _

theorem State.txn_releaseInput (s : State) : s.releaseInput.interp.txn = s.interp.txn :=
  congrArg (·.interp.txn) (State.releaseInput_recorded (i := s.interp.state) (r := s.interp.txn) s)

end recorded

/-! ## One more key at the tail of the queue -/

/-- A state with other keys queued. -/
def State.keyed (s : State) (queue : List Byte) : State := { s with keys.queue := queue }

/-- Two runs side by side, the second with b behind the queue, as long as b waits for page p. It waits no longer, and the two
runs are one, when the queue was emptied: then p has left ACTIVE or has entered error hold. -/
inductive State.Tailed (p : PageNum) (b : Byte) (s : State) : State → Prop
  | waiting (active : s.active = some p) (off : p ∉ s.ready) : Tailed p b s (s.keyed (s.keys.queue ++ [b]))
  | emptied (queue : s.keys.queue = []) (left : s.active = some p → (s.page p).hold ≠ none ∧ p ∉ s.ready) :
      Tailed p b s s

section tailed

variable {s t : State} {p : PageNum} {b : Byte}

/-- R6, R98: after a promotion that finds another page at the head, no key is queued for p. -/
theorem State.tailed_promote (active : s.active = none) (queue : s.keys.queue = []) (head : s.ready.head? ≠ some p) :
    s.promote.Tailed p b s.promote := by
  cases ready : s.ready with
  | nil =>
    rw [State.promote_empty ready]
    exact .emptied queue (by simp [active])
  | cons q rest =>
    rw [State.promote_head active ready]
    rw [ready] at head
    exact .emptied rfl fun here => absurd here head

theorem State.Tailed.setPage {g : Page} (r : s.Tailed p b t) (kept : (s.page p).hold ≠ none → g.hold ≠ none) :
    (s.setPage p g).Tailed p b (t.setPage p g) := by
  cases r with
  | waiting active off => exact .waiting (s := s.setPage p g) active off
  | emptied queue left =>
    refine .emptied queue fun here => ⟨?_, (left here).2⟩
    rw [State.page_setPage_self]
    exact kept (left here).1

/-- R98: with page p leaving ACTIVE for another, the two runs become one. -/
theorem State.Tailed.departed {g : Page} {ready : List PageNum} (r : s.Tailed p b t) (head : ready.head? ≠ some p) :
    (s.departed p g ready).Tailed p b (t.departed p g ready) := by
  have same : t.departed p g ready = s.departed p g ready := by cases r <;> rfl
  rw [same]
  exact State.tailed_promote rfl rfl head

theorem State.Tailed.off (r : s.Tailed p b t) (active : s.active = some p) : p ∉ s.ready := by
  cases r with
  | waiting _ off => exact off
  | emptied _ left => exact (left active).2

theorem State.Tailed.alike (r : s.Tailed p b t) : s.Alike t := by
  cases r <;> exact ⟨rfl, rfl, rfl, rfl⟩

theorem State.Tailed.page (r : s.Tailed p b t) : t.page p = s.page p := by
  cases r <;> rfl

theorem State.Tailed.ready (r : s.Tailed p b t) : t.ready = s.ready := by
  cases r <;> rfl

theorem State.Tailed.queueReport (report : Report) (r : s.Tailed p b t) :
    (s.queueReport report).Tailed p b (t.queueReport report) := by
  cases r with
  | waiting active off => exact .waiting (s := s.queueReport report) active off
  | emptied queue left => exact .emptied queue left

theorem State.Tailed.scanned (f : ScanUnit → ScanUnit) (r : s.Tailed p b t) :
    State.Tailed p b { s with scan := f s.scan } { t with scan := f t.scan } := by
  cases r with
  | waiting active off => exact .waiting (s := { s with scan := f s.scan }) active off
  | emptied queue left => exact .emptied queue left

/-- R7, R98: the parked page leaves ACTIVE; with no page READY it stays. -/
theorem State.Tailed.parkKey (r : s.Tailed p b t) (active : s.active = some p) : (s.parkKey p).Tailed p b (t.parkKey p) := by
  by_cases ready : s.ready = []
  · rw [State.parkKey_of_noNext ready, State.parkKey_of_noNext (r.ready.trans ready), State.setNotice_eq,
      State.setNotice_eq, r.page]
    exact r.setPage id
  · rw [State.parkKey_of_next ready, State.parkKey_of_next (r.ready ▸ ready), r.page, r.ready]
    refine r.departed fun head => r.off active (List.mem_of_mem_head? ?_)
    rwa [List.head?_append_of_ne_nil _ ready] at head

/-- R66: error hold empties the queue, and the two runs become one. -/
theorem State.Tailed.enterHold (r : s.Tailed p b t) (code : ErrorCode) :
    (s.enterHold p code).Tailed p b (t.enterHold p code) := by
  have same : t.enterHold p code = s.enterHold p code := by cases r <;> rfl
  have held : ((s.enterHold p code).page p).hold ≠ none := by simp [State.enterHold]
  rw [same]
  exact .emptied rfl fun here => ⟨held, r.off here⟩

/-- R98: with one more key queued every operation does the same. -/
theorem parallel_tailed (p : PageNum) (b : Byte) : Parallel p (State.Tailed p b) where
  alike r := r.alike
  setPage r h := r.setPage fun hold => h.hold ▸ hold
  enterHold code r := r.enterHold code
  queueReport report r := r.queueReport report
  acceptSend {s t} id r active := by
    rw [State.acceptSend_eq, State.acceptSend_eq, r.ready, r.page]
    exact (r.queueReport _).departed fun head => r.off active (List.mem_of_mem_head? head)
  parkKey r active := r.parkKey active
  answerScan a r := r.scanned fun u => { u with answers := u.answers ++ a.bytes }
  dropConfirm r := r.scanned fun u => { u with confirm := none, window := none }
  awaitConfirm {s t f} characters r _ _ := by
    have held := r.scanned fun u =>
      { u with
        confirm := some { characters := characters, page := p, field := f.number }
        window := some (s.interp.confirmWindow * 100)
        answers := u.answers ++ ScanAnswer.ack.bytes }
    have awaited := held.setPage (g := { s.page p with notice := some .sAgain }) id
    cases r <;> exact awaited

/-- A key before b. -/
theorem State.Tailed.editKey (active : s.active = some p) (off : p ∉ s.ready) (k : Key) :
    (s.editKey k).Tailed p b ((s.keyed (s.keys.queue ++ [b])).editKey k) := by
  have waiting : s.Tailed p b (s.keyed (s.keys.queue ++ [b])) := .waiting active off
  have active' : (s.keyed (s.keys.queue ++ [b])).active = some p := active
  by_cases reset : k = .reset
  · rw [reset, State.editKey_reset active, State.editKey_reset active']
    exact .waiting (s := s.setPage p _) active off
  · by_cases hold : (s.page p).hold = none
    · rw [State.editKey_of_free active hold, State.editKey_of_free active' hold]
      exact (parallel_tailed p b).actKey ((parallel_tailed p b).setNotice waiting none) active k
    · rwa [State.editKey_of_hold active hold reset, State.editKey_of_hold active' hold reset]

/-- A held frame before b. -/
theorem State.Tailed.releaseScan (active : s.active = some p) (off : p ∉ s.ready) :
    s.releaseScan.Tailed p b (s.keyed (s.keys.queue ++ [b])).releaseScan := by
  have active' : (s.keyed (s.keys.queue ++ [b])).active = some p := active
  cases held : s.scan.buffer with
  | none =>
    have held' : (s.keyed (s.keys.queue ++ [b])).scan.buffer = none := held
    rw [State.releaseScan_of_none held, State.releaseScan_of_none held']
    exact .waiting active off
  | some characters =>
    have held' : (s.keyed (s.keys.queue ++ [b])).scan.buffer = some characters := held
    rw [State.releaseScan_of_some active held, State.releaseScan_of_some active' held']
    exact (parallel_tailed p b).routeFrame (.waiting (s := { s with scan.buffer := none }) active off) active characters

theorem State.releaseKeys_of_empty (n : Nat) (empty : s.keys.queue = []) : State.releaseKeys n s = s := by
  cases n with
  | zero => rfl
  | succ n => simp only [State.releaseKeys, empty]

/-- R95, R96: the first key queued acts, then the rest. -/
theorem State.releaseKeys_cons {code : Byte} {rest : List Byte} (n : Nat) (queue : s.keys.queue = code :: rest) :
    State.releaseKeys (n + 1) s = State.releaseKeys n ((s.keyed rest).editKey (keyOfByte code)) := by
  simp only [State.releaseKeys, queue]
  rfl

/-- A key after all before it: it acts when page p is still ACTIVE and not in error hold, and is else discarded. -/
def State.thenKey (s : State) (p : PageNum) (b : Byte) : State :=
  if s.active = some p ∧ (s.page p).hold = none then s.editKey (keyOfByte b) else s

theorem State.keyed_self {queue : List Byte} (h : s.keys.queue = queue) : s.keyed queue = s := by
  subst h
  rfl

/-- R95: the only key queued acts. -/
theorem State.releaseKeys_single (n : Nat) (queue : s.keys.queue = []) :
    State.releaseKeys (n + 1) (s.keyed [b]) = s.editKey (keyOfByte b) := by
  have still : (s.editKey (keyOfByte b)).keys.queue = [] :=
    List.suffix_nil.1 (queue ▸ (s.unfed_editKey (keyOfByte b)).queue)
  have popped : (s.keyed [b]).keyed [] = s := State.keyed_self queue
  rw [State.releaseKeys_cons (s := s.keyed [b]) n rfl, popped, State.releaseKeys_of_empty n still]

/-- R66: on page p a key that is not RESET does nothing in error hold. -/
theorem State.thenKey_of_active (active : s.active = some p) (other : keyOfByte b ≠ .reset) :
    s.thenKey p b = s.editKey (keyOfByte b) := by
  unfold State.thenKey
  split
  · rfl
  · rename_i not_
    exact (State.editKey_of_hold active (fun hold => not_ ⟨active, hold⟩) other).symm

/-- R96 to R98: with no key queued before it the key at the tail acts, unless it was discarded. -/
theorem State.Tailed.releaseKeys_of_empty (n : Nat) (r : s.Tailed p b t) (queue : s.keys.queue = [])
    (other : keyOfByte b ≠ .reset) : State.releaseKeys (n + 1) t = s.thenKey p b := by
  cases r with
  | waiting active _ =>
    rw [queue, List.nil_append, State.releaseKeys_single n queue, State.thenKey_of_active active other]
  | emptied _ left =>
    rw [State.releaseKeys_of_empty _ queue, State.thenKey, if_neg]
    exact fun now => (left now.1).1 now.2

/-- R96 to R98: the key at the tail acts after all before it. -/
theorem State.Tailed.releaseKeys (n : Nat) (r : s.Tailed p b t) (room : s.keys.queue.length ≤ n)
    (other : keyOfByte b ≠ .reset) : State.releaseKeys (n + 1) t = (State.releaseKeys n s).thenKey p b := by
  induction n generalizing s t with
  | zero => exact r.releaseKeys_of_empty 0 (List.length_eq_zero_iff.1 (Nat.le_zero.1 room)) other
  | succ n ih =>
    cases queue : s.keys.queue with
    | nil => rw [r.releaseKeys_of_empty _ queue other, State.releaseKeys_of_empty _ queue]
    | cons code rest =>
      rw [queue, List.length_cons] at room
      cases r with
      | emptied empty _ => cases empty.symm.trans queue
      | waiting active off =>
        have acted : ((s.keyed rest).editKey (keyOfByte code)).Tailed p b
            ((s.keyed (rest ++ [b])).editKey (keyOfByte code)) := .editKey (s := s.keyed rest) active off _
        have fewer := ((s.keyed rest).unfed_editKey (keyOfByte code)).queue.length_le
        rw [queue, State.releaseKeys_cons (s := s.keyed _) (n + 1) (List.cons_append ..), State.releaseKeys_cons n queue]
        exact ih acted (fewer.trans (Nat.le_of_succ_le_succ room))

/-- R95 to R98: the release of the held input with one more key at the tail of the queue. RESET ends error hold, so it is
said of RESET with nothing before it. -/
theorem State.releaseInput_keyed (active : s.active = some p) (off : p ∉ s.ready)
    (alone : b = 0x8D#8 → s.keys.queue = [] ∧ s.scan.buffer = none) :
    (s.keyed (s.keys.queue ++ [b])).releaseInput =
      if s.releaseInput.active = some p ∧ ((s.releaseInput.page p).hold = none ∨ b = 0x8D#8)
      then s.releaseInput.editKey (keyOfByte b) else s.releaseInput := by
  by_cases reset : b = 0x8D#8
  · obtain ⟨queue, held⟩ := alone reset
    have held' : (s.keyed [b]).scan.buffer = none := held
    rw [State.releaseInput_of_empty queue held, if_pos ⟨active, .inr reset⟩, queue, List.nil_append, State.releaseInput,
      State.releaseScan_of_none held']
    exact State.releaseKeys_single 0 queue
  · have scan : s.releaseScan.Tailed p b (s.keyed (s.keys.queue ++ [b])).releaseScan := .releaseScan active off
    simp only [reset, or_false]
    unfold State.releaseInput
    rw [show (s.keyed (s.keys.queue ++ [b])).keys.queue.length = s.keys.queue.length + 1 from List.length_append]
    exact scan.releaseKeys _ s.unfed_releaseScan.queue.length_le (mt keyOfByte_eq_reset_iff.1 reset)

end tailed

end Sys2Proof.Machine

namespace Sys2Proof.Machine

/-! ## What is held takes no part in the ending -/

/-- A state with other input held: keys in the type-ahead queue, a frame in the scan buffer. -/
def State.holding (s : State) (queue : List Byte) (buffer : Option (List Byte)) : State :=
  { s with keys.queue := queue, scan.buffer := buffer }

/-- A run whose last act is to release, in u, what was held in s on page p. -/
structure State.EndsIn (p : PageNum) (run : State → State) (s u : State) : Prop where
  runs : ∀ queue buffer, run (s.holding queue buffer) = (u.holding queue buffer).releaseInput
  input : s.SameInput u
  off : p ∉ u.ready
  hold : (u.page p).hold = (s.page p).hold
  kind : u.interp.txn.bind (·.kind) = none

/-- What the steps before the close leave of page p and of the input held for it. -/
structure State.Still (p : PageNum) (s v : State) : Prop where
  input : s.SameInput v
  txn : v.interp.txn = s.interp.txn
  off : p ∉ v.ready
  hold : (v.page p).hold = (s.page p).hold
  mark : (v.page p).inFlight = (s.page p).inFlight

section ending

variable {s u v : State} {t : Transaction} {p : PageNum}

theorem State.answer_holding (s : State) (queue : List Byte) (buffer : Option (List Byte)) (r : Report) :
    (s.holding queue buffer).answer r = (s.answer r).holding queue buffer := by
  unfold State.answer
  rw [show (s.holding queue buffer).queueFull = s.queueFull from rfl]
  split <;> rfl

theorem State.closed_holding (s : State) (queue : List Byte) (buffer : Option (List Byte)) (t : Transaction)
    (next : InterpState) : (s.holding queue buffer).closed t next = (s.closed t next).holding queue buffer := by
  unfold State.closed State.clearMark
  split <;> rfl

theorem State.handFreed_holding (s : State) (queue : List Byte) (buffer : Option (List Byte)) :
    (s.holding queue buffer).handFreed = s.handFreed.holding queue buffer := by
  unfold State.handFreed
  rw [show (s.holding queue buffer).interp = s.interp from rfl, show (s.holding queue buffer).reports = s.reports from rfl,
    show (s.holding queue buffer).firstAttention = s.firstAttention from rfl]
  split <;> rfl

theorem State.handFreedTimes_holding (n : Nat) (s : State) (queue : List Byte) (buffer : Option (List Byte)) :
    State.handFreedTimes n (s.holding queue buffer) = (State.handFreedTimes n s).holding queue buffer := by
  induction n generalizing s with
  | zero => rfl
  | succ n ih => exact .trans (congrArg (State.handFreedTimes n) (s.handFreed_holding queue buffer)) (ih _)

theorem State.foldl_updPage_holding (f : Page → Page) (ps : List PageNum) (s : State) (queue : List Byte)
    (buffer : Option (List Byte)) : ps.foldl (fun s p => s.updPage p f) (s.holding queue buffer) =
      (ps.foldl (fun s p => s.updPage p f) s).holding queue buffer := by
  induction ps generalizing s with
  | nil => rfl
  | cons p ps ih => exact ih (s.updPage p f)

/-- R5, R6: with a page ACTIVE the return of the SENDING pages brings no promotion. -/
theorem State.returnSending_of_active (active : s.active = some p) : s.returnSending =
    { s.sendingPages.foldl (fun s q => s.updPage q (·.unsentReturn)) s with ready := s.sendingPages ++ s.ready } := by
  obtain ⟨pages, frame⟩ := State.foldl_updPage_eq Page.unsentReturn s.sendingPages s
  unfold State.returnSending
  simp only
  rw [← State.sendingPages, frame]
  exact State.promote_active active

theorem State.returnSending_holding (active : s.active = some p) (queue : List Byte) (buffer : Option (List Byte)) :
    (s.holding queue buffer).returnSending = s.returnSending.holding queue buffer := by
  have active' : (s.holding queue buffer).active = some p := active
  rw [State.returnSending_of_active active, State.returnSending_of_active active',
    show (s.holding queue buffer).sendingPages = s.sendingPages from rfl, State.foldl_updPage_holding]
  rfl

/-! ## Up to the close -/

theorem State.still_answer (off : p ∉ s.ready) (r : Report) : s.Still p (s.answer r) :=
  ⟨s.sameInput_answer r, s.answer_txn r, (s.answer_ready r).symm ▸ off, by rw [State.answer_page],
    by rw [State.answer_page]⟩

/-- R5, R18: a page that is ACTIVE does not return. -/
theorem State.still_returnSending (active : s.active = some p) (notSending : (s.page p).state ≠ .sending)
    (off : p ∉ s.ready) : s.Still p s.returnSending := by
  obtain ⟨pages, frame, page⟩ := s.returnSending_eq
  have same : State.page { s with pages := pages } p = s.page p := (page p).trans (Page.unsentReturn_of_ne notSending)
  rw [frame, State.promote_active (s := { s with pages := pages, ready := s.sendingPages ++ s.ready }) active]
  refine ⟨.refl s, rfl, ?_, congrArg Page.hold same, congrArg Page.inFlight same⟩
  simp only [List.mem_append, State.mem_sendingPages, not_or]
  exact ⟨notSending, off⟩

theorem State.Handed.still (a : s.Handed v) (off : p ∉ s.ready) : s.Still p v := by
  obtain ⟨set, page⟩ := a.page p
  exact ⟨a.input, a.txn, a.ready ▸ off, by rw [page], by rw [page]⟩

theorem State.Still.trans (a : s.Still p v) (b : v.Still p u) : s.Still p u :=
  ⟨a.input.trans b.input, b.txn.trans a.txn, b.off, b.hold.trans a.hold, b.mark.trans a.mark⟩

/-! ## The close -/

/-- R95: the close of a transaction that inhibits releases what is held. -/
theorem State.Still.endsIn {before : State → State} {next : InterpState} (still : s.Still p v) (active : s.active = some p)
    (inhibited : s.inhibited = true)
    (runs : ∀ queue buffer, before (s.holding queue buffer) = v.holding queue buffer) :
    s.EndsIn p (fun w => (before w).closeTransaction t next) (v.closed t next) := by
  obtain ⟨pages, frame⟩ := v.closed_frame t next
  have page : (v.closed t next).page p = if t.page = some p then { v.page p with inFlight := false } else v.page p :=
    State.page_clearMark _ t p
  have inhibits (queue : List Byte) (buffer : Option (List Byte)) : (v.holding queue buffer).inhibited = true := by
    obtain ⟨-, -, active', -⟩ := still.input
    refine (State.inhibited_of_marks (s := s) active' (congrArg (·.bind (·.kind)) still.txn) fun q here => ?_).trans inhibited
    obtain rfl := Option.some.inj (active.symm.trans here)
    exact still.mark
  refine ⟨fun queue buffer => ?_, ?_, ?_, ?_, ?_⟩
  · simp only [runs, State.closeTransaction_closed, inhibits, if_true, State.closed_holding]
  · rw [frame]
    exact still.input
  · rw [frame]
    exact still.off
  · rw [page, ← still.hold]
    split <;> rfl
  · rw [frame, Option.bind_none]

/-- R127: an abort by START opens the next transaction. -/
theorem State.EndsIn.opened {run : State → State} (h : s.EndsIn p run u) :
    s.EndsIn p (fun w => (run w).openTransaction) u.openTransaction where
  runs queue buffer := by
    rw [h.runs]
    exact (State.releaseInput_recorded (u.holding queue buffer)).symm
  input := h.input
  off := h.off
  hold := h.hold
  kind := rfl

/-! ## The three endings of an AMEND -/

section due

variable (due : s.orderDue t .amend) (active : s.active = some p) (mark : (s.page p).inFlight = true)

include due

theorem State.orderDue_holding (queue : List Byte) (buffer : Option (List Byte)) :
    (s.holding queue buffer).orderDue t .amend := due

/-- R126: END of an AMEND. -/
theorem exec_endTransaction_amend : exec .endTransaction s =
    .next ((s.answer (.completion t.tag t.status (t.firstSkipped.getD 0))).closeTransaction t .between) := by
  rw [exec_endTransaction due]
  obtain ⟨-, -, kind, -⟩ := due
  simp only [State.reachEnd, State.endEffects, kind, State.endReport]

/-- R127: START aborts an AMEND. -/
theorem exec_aborted_amend : exec .aborted s = .next
    (((s.answer (.completion t.tag .aborted (nextIndex t.index))).closeTransaction t .header).openTransaction) := by
  obtain ⟨state, record, kind, order, free⟩ := due
  show Host.Outcome.next (s.takeStream [0x02#8]) = _
  simp only [State.takeStream_cons, State.takeStream_nil, State.takeStreamByte, free, State.interpretByte, state, record,
    order, State.takeOrderCode, State.abort, State.abortEffects, kind]
  rfl

/-- R157: the stream reset cuts an AMEND short. -/
theorem exec_streamReset_amend : exec .streamReset s = .next
    ((State.handFreedTimes 8 s.emptyReports.returnSending).closeTransaction t .between) := by
  obtain ⟨state, record, kind, -, free⟩ := due
  have flying : s.inFlightTxn = some t := by rw [State.inFlightTxn, if_pos state, record]
  have cut : s.cutShort = s := by
    simp only [State.cutShort, flying, State.abortEffects, kind, ← free]
  have emptied : s.streamEmptied = State.handFreedTimes 8 s.emptyReports.returnSending := by rw [State.streamEmptied, cut]
  show Host.Outcome.next s.streamEmptied.endCutShort = _
  rw [State.endCutShort, State.inFlightTxn_streamEmptied, flying, emptied]

include active mark

/-- R90: an AMEND in flight for the ACTIVE page inhibits. -/
theorem State.inhibited_of_amend : s.inhibited = true := by
  obtain ⟨-, record, kind, -⟩ := due
  simp only [State.inhibited, active, record, Option.bind_some, kind, mark]

/-- R95, R126, R127, R157: whichever way the AMEND ends, its last act is to release what is held. -/
theorem State.endsIn_amend {ending : Instr} (notSending : (s.page p).state ≠ .sending) (off : p ∉ s.ready)
    (which : ending = .endTransaction ∨ ending = .aborted ∨ ending = .streamReset) :
    ∃ run u, s.EndsIn p run u ∧ ∀ queue buffer,
      exec ending (s.holding queue buffer) = .next (run (s.holding queue buffer)) := by
  have inhibited := State.inhibited_of_amend due active mark
  have answered (r : Report) (next : InterpState) :
      s.EndsIn p (fun w => (w.answer r).closeTransaction t next) ((s.answer r).closed t next) :=
    (State.still_answer off r).endsIn active inhibited fun queue buffer => s.answer_holding queue buffer r
  rcases which with rfl | rfl | rfl
  · exact ⟨_, _, answered _ _, fun queue buffer => exec_endTransaction_amend (State.orderDue_holding due queue buffer)⟩
  · exact ⟨_, _, (answered _ _).opened, fun queue buffer => exec_aborted_amend (State.orderDue_holding due queue buffer)⟩
  · have returned : s.emptyReports.Still p s.emptyReports.returnSending := State.still_returnSending active notSending off
    have still : s.Still p (State.handFreedTimes 8 s.emptyReports.returnSending) :=
      .trans (v := s.emptyReports) ⟨.refl s, rfl, off, rfl, rfl⟩
        (returned.trans ((State.handed_handFreedTimes 8 _).still returned.off))
    have emptied := still.endsIn (t := t) (next := .between)
      (before := fun w => State.handFreedTimes 8 w.emptyReports.returnSending) active inhibited fun queue buffer => by
        rw [← State.handFreedTimes_holding]
        exact congrArg _ (State.returnSending_holding (s := s.emptyReports) active queue buffer)
    exact ⟨_, _, emptied, fun queue buffer => exec_streamReset_amend (State.orderDue_holding due queue buffer)⟩

end due

/-! ## Right after the ending -/

/-- R90: outside inhibit a key is taken at once. -/
theorem State.takeKey_of_free (free : s.inhibited = false) (b : Byte) : s.takeKey b = s.editKey (keyOfByte b) := by
  unfold State.takeKey
  simp only [free, Bool.false_eq_true, if_false]
  split <;> rfl

/-- R90: a transaction without a kind inhibits nothing. -/
theorem State.inhibited_of_noKind (kind : s.interp.txn.bind (·.kind) = none) : s.inhibited = false := by
  unfold State.inhibited
  rw [kind]
  split <;> simp_all

/-- A key typed right after the release of what was held. -/
theorem exec_key_releaseInput {c : Instr} {b : Byte} (code : keyCode c = some b) (marker : b ≠ 0x1D#8)
    (kind : s.interp.txn.bind (·.kind) = none) (active : s.active = some p) (frame : s.keys.frame = .absent) :
    exec c s.releaseInput = .next (s.releaseInput.editKey (keyOfByte b)) := by
  have free : s.releaseInput.inhibited = false := State.inhibited_of_noKind (by rw [State.txn_releaseInput, kind])
  have outside : s.releaseInput.keys.frame = .absent := (State.unfed_releaseInput active).1.frame.trans frame
  rw [exec_of_keyCode code, State.takeInput_key _ b outside marker, State.takeKey_of_free free]

/-- R105: outside error hold and inhibit a frame that arrives whole is routed. -/
theorem exec_scanFrame_of_free {characters : List Byte} (framed : s.frameFree) (active : s.active = some p)
    (hold : (s.page p).hold = none) (free : s.inhibited = false) (least : 1 ≤ characters.length)
    (most : characters.length ≤ 64) :
    exec (.scanFrame (byteOf characters.length) characters) s = .next (s.routeFrame p characters) := by
  have counted : characters.length = (byteOf characters.length).toNat := by
    simp only [byteOf, BitVec.toNat_ofNat]
    omega
  refine congrArg Host.Outcome.next ((State.takeInput_wholeFrame framed counted).trans ?_)
  exact State.judgeFrame_of_free (counted ▸ ⟨least, most⟩) active hold free

/-- R95, R104: with no key queued the release is the routing of the held frame. -/
theorem State.releaseInput_holding (active : s.active = some p) (characters : List Byte) :
    (s.holding [] (some characters)).releaseInput = (s.holding [] none).routeFrame p characters :=
  State.releaseScan_of_some (s := s.holding [] (some characters)) active rfl

end ending

/-- Settles O39: the ending's last act is the release, and the release takes its last key as one typed right then. -/
theorem keyTypedAheadActsAtEnd : Obligations.KeyTypedAheadActsAtEnd := by
  intro s t p ending due _ active mark notSending off frame which
  obtain ⟨run, u, ends, ran⟩ := State.endsIn_amend due active mark notSending off which
  obtain ⟨keys, scan, active', -⟩ := ends.input
  have here : u.active = some p := active'.trans active
  have runs (queue : List Byte) (buffer : Option (List Byte)) :
      exec ending (s.holding queue buffer) = .next (u.holding queue buffer).releaseInput :=
    (ran queue buffer).trans (congrArg _ (ends.runs queue buffer))
  have whole : exec ending s = .next (u.holding s.keys.queue s.scan.buffer).releaseInput := runs s.keys.queue s.scan.buffer
  refine ⟨fun c b front queue code marker alone => ?_, fun characters held queue receiving hold least most => ?_⟩
  · have same (others : List Byte) : u.holding others s.scan.buffer = u.keyed others := by
      rw [← scan]
      rfl
    have before : exec ending (s.keyed front) = .next (u.keyed front).releaseInput := by
      rw [← same front]
      exact runs front s.scan.buffer
    refine ⟨(u.keyed front).releaseInput, before, ?_⟩
    have typed := exec_key_releaseInput (s := u.keyed front) code marker ends.kind here (by simp [State.keyed, keys, frame])
    have tail := State.releaseInput_keyed (s := u.keyed front) (b := b) here ends.off fun reset => by
      simpa [State.keyed, scan] using alone reset
    rw [typed, whole, same, queue, ← apply_ite Host.Outcome.next]
    exact congrArg Host.Outcome.next tail
  · have empty : (u.holding [] none).releaseInput = u.holding [] none := State.releaseInput_of_empty rfl rfl
    have before : exec ending { s with scan.buffer := none } = .next (u.holding [] none) := by
      rw [← empty, ← queue]
      exact runs s.keys.queue none
    have free : (u.holding [] none).inhibited = false := State.inhibited_of_noKind ends.kind
    have framed : (u.holding [] none).frameFree := ⟨(congrArg (·.frame) keys).trans frame,
      (congrArg (·.receiving) scan).trans receiving⟩
    refine ⟨u.holding [] none, before, ?_⟩
    rw [exec_scanFrame_of_free framed here (ends.hold.trans hold) free least most, whole, queue, held,
      State.releaseInput_holding here]

end Sys2Proof.Machine

/-! # The chain orders: CHAIN, UNCHAIN and SELECT

CHAIN is the one order whose length its operands give; UNCHAIN and SELECT have one operand byte (R117, R118, R124). -/

namespace Sys2Proof.Machine

section chainOrders

variable {s : State} {t : Transaction} {k : Kind} {p : PageNum} {c : ChainId}

/-- R124: an order whose bytes are read to their end is carried out in the page of its transaction. -/
theorem State.takeStream_pageOrder_of_read {o : OrderCode} {operands : List Byte} (due : s.orderDue t k)
    (page : t.page = some p) (allowed : o.allowedIn k = true) (kind : k ≠ .store) (order : o ≠ .recall)
    (more : ∀ n, 1 ≤ n → n < operands.length → operandsRead o (operands.take n) = .more)
    (read : operandsRead o operands = .complete) (some_ : operands ≠ []) :
    s.takeStream (o.code :: operands) = State.settleOrder (t.reading o operands)
      ((s.withTxn (t.reading o operands)).pageOrder k p t.writePos o operands) := by
  obtain ⟨-, -, hk, -, -⟩ := id due
  have kind' : (t.reading o operands).kind = some k := hk
  have page' : (t.reading o operands).page = some p := page
  rw [State.takeStream_order s t k o operands due allowed more read some_, State.carryOut, kind', page']
  congr 1
  cases k with
  | store => exact absurd rfl kind
  | _ => exact if_neg order

theorem State.page_withTxn (s : State) (t : Transaction) (p : PageNum) : (s.withTxn t).page p = s.page p := rfl

/-- R117, R118: the byte of a chain id names the chain, and is not the byte that names none. -/
theorem chainOfByte_byteOf : ∀ c : ChainId, chainOfByte (byteOf c.val) = some c ∧ byteOf c.val ≠ 0xFF#8 := by decide

/-! ## CHAIN -/

/-- R124: a CHAIN with a member count in its bounds is read with its last member. -/
theorem operandsRead_chain {id action count follow m : Byte} {members : List Byte} (least : 1 ≤ m.toNat)
    (most : m.toNat ≤ 16) (length : members.length = m.toNat) :
    (∀ n, 1 ≤ n → n < (id :: action :: count :: follow :: m :: members).length →
      operandsRead .chain ((id :: action :: count :: follow :: m :: members).take n) = .more) ∧
    operandsRead .chain (id :: action :: count :: follow :: m :: members) = .complete := by
  have counted : ¬(m.toNat = 0 ∨ 16 < m.toNat) := by omega
  refine ⟨fun n from_ below => ?_, ?_⟩
  · match n, from_ with
    | 1, _ | 2, _ | 3, _ | 4, _ => rfl
    | n + 5, _ =>
      simp only [List.length_cons] at below
      have short : ¬m.toNat ≤ (members.take n).length := by simp only [List.length_take]; omega
      simp only [List.take_succ_cons, operandsRead, if_neg counted, if_neg short]
  · simp only [operandsRead, if_neg counted, length, Nat.le_refl, if_true]

/-- The code of a chain's action (11.2). -/
def Action.code : Action → Byte
  | .nothing => 0x00#8
  | .attn => 0x01#8
  | .send => 0x02#8

theorem actionOfByte_code (a : Action) : actionOfByte a.code = some a := by cases a <;> rfl

/-- R117: the chain that a CHAIN with operands in their bounds describes. -/
theorem chainOf_eq {a : Action} {count follow m : Byte} {members : List Byte} (counted : count ≠ 0x00#8)
    (least : 1 ≤ m.toNat) (most : m.toNat ≤ 16) (length : members.length = m.toNat) :
    chainOf (byteOf c.val :: a.code :: count :: follow :: m :: members) =
      some (c, { action := a, count := count.toNat, remaining := count.toNat, follow := follow != 0x00#8,
                 members := members.map (·.toNat), index := 0 }) := by
  have bounds : ¬(count.toNat = 0 ∨ m.toNat = 0 ∨ 16 < m.toNat ∨ members.length ≠ m.toNat) := by
    have : count.toNat ≠ 0 := fun zero => counted (BitVec.eq_of_toNat_eq zero)
    omega
  simp only [chainOf, (chainOfByte_byteOf c).1, actionOfByte_code, if_neg bounds]
  rfl

/-- R117: a listed number is admitted when it names a field that takes scans and no other chain has it. -/
theorem Page.FieldLaw.admitsMember_iff {g : Page} (law : g.FieldLaw) {n : Nat} : g.admitsMember c n = true ↔
    (∃ f ∈ g.fields, f.number = n ∧ f.takesScans = true) ∧
      ∀ (d : ChainId) (ch : Chain), g.chains[d.val] = some ch → n ∈ ch.members → d = c := by
  refine ⟨fun admitted => ?_, fun ⟨⟨f, hf, number, scans⟩, apart⟩ => ?_⟩
  · obtain ⟨named, apart⟩ := Page.admitsMember_sound admitted
    exact ⟨named, fun d ch there member => by_contra fun ne => apart d ch ne there member⟩
  · have named : ((g.fieldNumbered n).bind (·.entry)).any (·.source ≠ .key) = true := by
      rw [law.fieldNumbered hf number]
      exact scans
    rw [Page.admitsMember, named, Bool.true_and, List.all_eq_true]
    intro d _
    by_cases same : d = c
    · simp [same]
    · cases there : g.chains[d.val] with
      | none => simp
      | some ch => simpa [same] using fun member => same (apart d ch there member)

/-- R117: the test of a CHAIN's members. -/
theorem Page.FieldLaw.admitsMembers_iff {g : Page} (law : g.FieldLaw) {members : List Byte} :
    ((members.map (·.toNat)).all (g.admitsMember c) && decide (members.map (·.toNat)).Nodup) = true ↔
      members.Nodup ∧ ∀ b ∈ members, (∃ f ∈ g.fields, f.number = b.toNat ∧ f.takesScans = true) ∧
        ∀ (d : ChainId) (ch : Chain), g.chains[d.val] = some ch → b.toNat ∈ ch.members → d = c := by
  have distinct : (members.map (·.toNat)).Nodup ↔ members.Nodup :=
    List.nodup_map_iff fun _ _ => BitVec.eq_of_toNat_eq
  rw [Bool.and_eq_true, decide_eq_true_iff, distinct, and_comm, List.all_map, List.all_eq_true]
  simp only [Function.comp_apply, law.admitsMember_iff]

/-- R117: what a CHAIN comes to that describes a chain. -/
theorem State.orderChain_eq {operands : List Byte} {ch : Chain} (described : chainOf operands = some (c, ch)) :
    s.orderChain p operands =
      if (ch.members.all ((s.page p).admitsMember c) && decide ch.members.Nodup) = true then
        .done (s.updPage p fun g => { g with chains := g.chains.set c.val (some ch) })
      else .skipped s := by
  simp only [State.orderChain, described]

end chainOrders

/-- Settles O31: CHAIN is read whole, and the test of its members decides between the new chain and the skip. -/
theorem chainOrderDefinesTheChain : Obligations.ChainOrderDefinesTheChain := by
  intro s t k p c a count follow m members due page kind law counted least most length action admitted
  have allowed : OrderCode.chain.allowedIn k = true ∧ k ≠ .store := by
    rcases kind with rfl | rfl | rfl <;> decide
  have code : action = a.code := by cases a <;> rfl
  obtain ⟨more, read⟩ := operandsRead_chain (id := byteOf c.val) (action := action) (count := count) (follow := follow)
    least most length
  have taken : exec (.chain (byteOf c.val) action count follow m members) s =
      .next (State.settleOrder _
        ((s.withTxn _).orderChain p (byteOf c.val :: action :: count :: follow :: m :: members))) :=
    congrArg Host.Outcome.next (State.takeStream_pageOrder_of_read (o := .chain) due page allowed.1 allowed.2 nofun more
      read (List.cons_ne_nil _ _))
  have described := chainOf_eq (c := c) (a := a) (follow := follow) counted least most length
  rw [← code] at described
  rw [State.orderChain_eq described, State.page_withTxn] at taken
  have tested := law.admitsMembers_iff (c := c) (members := members)
  refine ⟨fun holds => taken.trans ?_, fun fails => taken.trans ?_⟩
  · rw [if_pos (tested.2 holds), State.settleOrder_done due]
  · rw [if_neg (mt tested.1 fails), State.settleOrder_skipped due]

/-! ## UNCHAIN and SELECT -/

/-- Settles O32: UNCHAIN and SELECT carried out on the chain that they find. -/
theorem unchainAndSelect : Obligations.UnchainAndSelect := by
  intro s t k p c due page kind
  have allowed : OrderCode.select.allowedIn k = true ∧ k ≠ .store := by
    rcases kind with rfl | rfl | rfl <;> decide
  have allowed' (other : k ≠ .load) : OrderCode.unchain.allowedIn k = true := by
    rcases kind with rfl | rfl | rfl
    · exact absurd rfl other
    all_goals decide
  obtain ⟨named, some_⟩ := chainOfByte_byteOf c
  have select (n : Byte) : exec (.select n) s = .next (State.settleOrder (t.reading .select [n])
      ((s.withTxn (t.reading .select [n])).orderSelect p n)) :=
    congrArg Host.Outcome.next (State.takeStream_pageOrder (o := .select) (operands := [n]) (n := 1) due page allowed.1
      allowed.2 nofun (fun _ => rfl) rfl (List.cons_ne_nil _ _))
  have unchain (other : k ≠ .load) (n : Byte) : exec (.unchain n) s = .next (State.settleOrder (t.reading .unchain [n])
      ((s.withTxn (t.reading .unchain [n])).orderUnchain p n)) :=
    congrArg Host.Outcome.next (State.takeStream_pageOrder (o := .unchain) (operands := [n]) (n := 1) due page
      (allowed' other) allowed.2 nofun (fun _ => rfl) rfl (List.cons_ne_nil _ _))
  refine ⟨?_, fun there => ?_, fun absent => ⟨?_, fun other => ?_⟩⟩
  · rw [select, State.orderSelect, if_pos rfl, State.settleOrder_done due]
  · obtain ⟨ch, there⟩ := Option.ne_none_iff_exists'.1 there
    refine ⟨?_, fun other => ?_⟩
    · simp only [select, State.orderSelect, if_neg some_, named, State.page_withTxn, there]
      rw [State.settleOrder_done due]
    · simp only [unchain other, State.orderUnchain, named, State.page_withTxn, there]
      rw [State.settleOrder_done due]
  · simp only [select, State.orderSelect, if_neg some_, named, State.page_withTxn, absent]
    rw [State.settleOrder_skipped due]
  · simp only [unchain other, State.orderUnchain, named, State.page_withTxn, absent]
    rw [State.settleOrder_skipped due]

end Sys2Proof.Machine

/-! # What send validation does not look at

A chain's remaining count and the last notice code are aside of send validation: it neither reads nor writes them. So
the count may be reloaded before a chain's action as well as after it (R109), and the notice matters to no send that is
refused for want of a report entry (R84). -/

namespace Sys2Proof.Machine

/-! ## Changes aside of validation -/

/-- A change of a page that validation does not see: it leaves fields, cells and cursor, and it commutes with each edit
that validation makes. -/
structure Page.Aside (φ : Page → Page) : Prop where
  fields : ∀ g, (φ g).fields = g.fields
  cells : ∀ g, (φ g).cells = g.cells
  cursor : ∀ g, (φ g).cursor = g.cursor
  setFields : ∀ (g : Page) (fields : List Field), φ { g with fields := fields } = { φ g with fields := fields }
  setCells : ∀ (g : Page) (cells : Cells), φ { g with cells := cells } = { φ g with cells := cells }
  setCursor : ∀ (g : Page) (cursor : Nat), φ { g with cursor := cursor } = { φ g with cursor := cursor }
  selectMember : ∀ g n, φ (g.selectMember n) = (φ g).selectMember n

namespace Page.Aside

variable {φ : Page → Page} (aside : Page.Aside φ) (g : Page)

include aside

theorem updEntry (n : Nat) (change : EntryItems → EntryItems) :
    φ (g.updEntry n change) = (φ g).updEntry n change := by
  simp only [Page.updEntry, Page.updField, aside.fields]
  exact aside.setFields g _

theorem writeChecked (f : Field) (out : List Byte) : φ (g.writeChecked f out) = (φ g).writeChecked f out := by
  unfold Page.writeChecked
  split
  · rw [aside.setCells, aside.cells]
  · rfl

theorem codesOf (f : Field) : (φ g).codesOf f = g.codesOf f := by rw [Page.codesOf, aside.cells, Page.codesOf]

theorem checkField (f : Field) : (φ g).checkField f = g.checkField f := by
  unfold Page.checkField
  rw [aside.codesOf]

theorem walkTest (f : Field) : (φ g).walkTest f = g.walkTest f := by
  unfold Page.walkTest
  rw [aside.codesOf, aside.checkField]

theorem failWalk (f : Field) (code : ErrorCode) : φ (g.failWalk f code) = (φ g).failWalk f code := by
  unfold Page.failWalk
  simp only [aside.cursor, ← aside.updEntry]
  split
  · rfl
  · rw [aside.selectMember, aside.setCursor]

theorem walk (fs : List Field) :
    (φ g).walk fs = { page := φ (g.walk fs).page, failure := (g.walk fs).failure } := by
  induction fs generalizing g with
  | nil => rfl
  | cons f fs ih =>
    simp only [Page.walk, aside.walkTest]
    split
    · exact ih g
    · rw [← aside.writeChecked, ← aside.updEntry, ih]
    · rw [aside.failWalk]

theorem entryAt (a : Nat) : (φ g).entryAt a = g.entryAt a := by
  simp only [Page.entryAt, Page.fieldAt, aside.fields]

theorem validateCursorField : (φ g).validateCursorField =
    { page := φ g.validateCursorField.page, failure := g.validateCursorField.failure } := by
  unfold Page.validateCursorField
  rw [aside.cursor, aside.entryAt]
  split
  · split
    · rw [aside.checkField]
      split
      · simp only [Page.passExit, aside.updEntry, aside.writeChecked]
      · simp only [Page.failExit, aside.updEntry]
    · rfl
  · rfl

/-- R81 to R83: validation of the changed page is validation of the page, changed. -/
theorem validateSend {v : Page} {failure : Option ErrorCode}
    (valid : g.validateSend = { page := v, failure := failure }) :
    (φ g).validateSend = { page := φ v, failure := failure } := by
  unfold Page.validateSend at valid ⊢
  rw [aside.validateCursorField]
  cases first : g.validateCursorField with | mk h stopped => ?_
  rw [first] at valid
  cases stopped with
  | none =>
    have walked : h.walk h.entryFields = { page := v, failure := failure } := valid
    simp only [Page.entryFields, aside.fields, aside.walk]
    rw [← Page.entryFields, walked]
  | some code =>
    obtain ⟨rfl, rfl⟩ := Validated.mk.inj valid
    rfl

end Page.Aside

/-! ## The notice -/

theorem Page.aside_unnoticed : Page.Aside Page.unnoticed where
  fields _ := rfl
  cells _ := rfl
  cursor _ := rfl
  setFields _ _ := rfl
  setCells _ _ := rfl
  setCursor _ _ := rfl
  selectMember g n := by
    have members : g.unnoticed.memberOf n = g.memberOf n := rfl
    unfold Page.selectMember
    rw [members]
    split <;> rfl

/-- Validation leaves the last notice code of a page that shows none. -/
theorem Page.notice_validateSend {g v : Page} {failure : Option ErrorCode} (unnoticed : g.notice = none)
    (valid : g.validateSend = { page := v, failure := failure }) : v.notice = none := by
  have same : g.unnoticed = g := by rw [Page.unnoticed, ← unnoticed]
  have valid' := Page.aside_unnoticed.validateSend g valid
  rw [same, valid] at valid'
  exact (congrArg (·.page.notice) valid').trans rfl

/-- R84: a send does not depend on the notice where the page shows none, and where no report entry is free. -/
theorem State.send_unnoticed {s : State} {p : PageNum} {g : Page} (id : Nat)
    (silent : g.notice = none ∨ 8 ≤ s.reports.queue.length) :
    (s.setPage p g.unnoticed).send p id = (s.setPage p g).send p id := by
  obtain unnoticed | full := silent
  · rw [Page.unnoticed, ← unnoticed]
  · obtain ⟨v, failure, valid⟩ : ∃ v failure, g.validateSend = { page := v, failure := failure } := ⟨_, _, rfl⟩
    have valid' := Page.aside_unnoticed.validateSend g valid
    cases failure with
    | some code => rw [State.send_of_failure valid, State.send_of_failure valid']; rfl
    | none => rw [State.send_of_full valid full, State.send_of_full valid' full]; rfl

/-! ## The remaining count -/

theorem Page.memberOf_reloaded (g : Page) (c : ChainId) (n : Nat) : (g.reloaded c).memberOf n = g.memberOf n := by
  unfold Page.memberOf
  congr 1
  funext d
  by_cases same : d = c
  · subst same
    simp only [Page.reloaded, Page.updChain, Vector.getElem_set_self]
    cases g.chains[d.val] <;> rfl
  · rw [Page.reloaded, Page.chain_updChain, if_neg same]

/-- Changes of one page's chains that commute record by record. -/
theorem Page.updChain_comm (g : Page) (c d : ChainId) {f h : Chain → Chain} (comm : ∀ k, f (h k) = h (f k)) :
    (g.updChain d h).updChain c f = (g.updChain c f).updChain d h := by
  by_cases same : c = d
  · subst same
    simp only [Page.updChain, Vector.set_set, Vector.getElem_set_self, Option.map_map, Function.comp_def, comm]
  · have apart : d.val ≠ c.val := fun e => same (Fin.ext e.symm)
    simp only [Page.updChain, Vector.getElem_set_ne _ _ apart, Vector.getElem_set_ne _ _ apart.symm,
      Vector.set_comm _ _ apart]

theorem Page.aside_reloaded (c : ChainId) : Page.Aside (·.reloaded c) where
  fields _ := rfl
  cells _ := rfl
  cursor _ := rfl
  setFields _ _ := rfl
  setCells _ _ := rfl
  setCursor _ _ := rfl
  selectMember g n := by
    unfold Page.selectMember
    rw [Page.memberOf_reloaded]
    split
    · rename_i d i _
      have reloaded := g.updChain_comm c d (f := fun k => { k with remaining := k.count })
        (h := fun k => { k with index := i }) fun _ => rfl
      exact congrArg (fun k : Page => { k with current := some d }) reloaded
    · rfl

end Sys2Proof.Machine

/-! # The step of a chain

A deposit into a chain's member steps the chain, and with its count the chain's action is taken (R109, R110). The action
leaves a page on which the follow move can be made (R111). -/

namespace Sys2Proof.Machine

/-! ## The count reloaded before the action -/

section reloaded

variable {s : State} {p : PageNum} {g : Page} {c : ChainId}

/-- A page that is replaced, then changed. -/
theorem State.updPage_setPage (s : State) (p : PageNum) (g : Page) (φ : Page → Page) :
    (s.setPage p g).updPage p φ = s.setPage p (φ g) := by
  rw [State.updPage, State.page_setPage_self, State.setPage_setPage]

/-- Two pages replaced, one after the other, in either order. -/
theorem State.setPage_comm (s : State) {p q : PageNum} (ne : q ≠ p) (g h : Page) :
    (s.setPage p g).setPage q h = (s.setPage q h).setPage p g := by
  have apart : p.val ≠ q.val := fun e => ne (Fin.ext e.symm)
  simp only [State.setPage, Vector.set_comm _ _ apart]

/-- R6: promotion does not look at a page's chains. -/
theorem State.promote_reloaded (s : State) (p : PageNum) (c : ChainId) :
    (s.updPage p (·.reloaded c)).promote = s.promote.updPage p (·.reloaded c) := by
  cases active : s.active with
  | some a => rw [State.promote_active active, State.promote_active (s := s.updPage p (·.reloaded c)) active]
  | none =>
    cases ready : s.ready with
    | nil => rw [State.promote_empty ready, State.promote_empty (s := s.updPage p (·.reloaded c)) ready]
    | cons q rest =>
      have pages :
          (s.updPage p (·.reloaded c)).setPage q { (s.updPage p (·.reloaded c)).page q with state := .active } =
          (s.setPage q { s.page q with state := .active }).updPage p (·.reloaded c) := by
        by_cases same : q = p
        · subst same
          rw [State.updPage_setPage, State.page_updPage_self, State.updPage, State.setPage_setPage]
          rfl
        · rw [State.page_updPage, if_neg same, State.updPage, State.setPage_comm s same, State.updPage,
            State.page_setPage_ne s q p _ same]
      rw [State.promote_head active ready, State.promote_head (s := s.updPage p (·.reloaded c)) active ready, pages]
      rfl

/-- R84, R85: a send does not look at a chain's remaining count. -/
theorem State.send_reloaded (s : State) (p : PageNum) (g : Page) (c : ChainId) (id : Nat) :
    (s.setPage p (g.reloaded c)).send p id = ((s.setPage p g).send p id).updPage p (·.reloaded c) := by
  obtain ⟨v, failure, valid⟩ : ∃ v failure, g.validateSend = { page := v, failure := failure } := ⟨_, _, rfl⟩
  have valid' := (Page.aside_reloaded c).validateSend g valid
  cases failure with
  | some code =>
    rw [State.send_of_failure valid, State.send_of_failure valid']
    exact congrArg (fun t : State => { t with keys := { s.keys with queue := [] } })
      (State.updPage_setPage s p (v.held code) (·.reloaded c)).symm
  | none =>
    by_cases full : 8 ≤ s.reports.queue.length
    · rw [State.send_of_full valid full, State.send_of_full valid' full, State.updPage_setPage]
      rfl
    · have free := Nat.not_le.1 full
      rw [State.send_of_free valid free, State.send_of_free valid' free, ← State.promote_reloaded]
      exact congrArg (fun t : State => ({ t with reports := { s.reports with
        queue := s.reports.queue ++ [.entry (entryReportOf p v.sent id)] } } : State).leaveActive.promote)
        (State.updPage_setPage s p v.sent (·.reloaded c)).symm

/-- R109, R110: the count may be reloaded before the chain's action is taken. -/
theorem State.chainAction_reloaded (s : State) (p : PageNum) (g : Page) (c d : ChainId) (action : Action) :
    (s.setPage p (g.reloaded c)).chainAction p d action =
      ((s.setPage p g).chainAction p d action).updPage p (·.reloaded c) := by
  cases action with
  | nothing => exact (State.updPage_setPage s p g (·.reloaded c)).symm
  | attn =>
    simp only [State.chainAction, State.raiseAttention_eq, State.setPage_reports, State.page_setPage_self,
      State.setPage_setPage]
    split
    · exact congrArg (fun t : State => { t with reports := { s.reports with
        queue := s.reports.queue ++ [Report.attention p (.chain d) g.serial] } })
        (State.updPage_setPage s p g (·.reloaded c)).symm
    · rw [State.updPage_setPage]
      rfl
  | send => exact State.send_reloaded s p g c 13

end reloaded

/-! ## The step -/

section step

variable {s : State} {p : PageNum} {g : Page} {c : ChainId} {ch : Chain}

/-- R109: a chain after a deposit into its member at place k, its count reloaded when the deposit was its last. -/
def Chain.advanced (ch : Chain) (k : Nat) : Chain :=
  { ch with
    index := (k + 1) % ch.members.length
    remaining := if ch.remaining = 1 then ch.count else ch.remaining - 1 }

/-- R109: the page with its chain c stepped. -/
def Page.advanced (g : Page) (c : ChainId) (ch : Chain) (k : Nat) : Page :=
  { g with chains := g.chains.set c.val (some (ch.advanced k)) }

theorem Page.updChain_of_some (there : g.chains[c.val] = some ch) (change : Chain → Chain) :
    g.updChain c change = { g with chains := g.chains.set c.val (some (change ch)) } := by
  rw [Page.updChain, there, Option.map_some]

/-- R109, R110: the chain is stepped, and its action is taken with the last deposit of its count. -/
theorem State.stepChain_eq (there : g.chains[c.val] = some ch) (least : 1 ≤ ch.remaining) (k : Nat) :
    (s.setPage p g).stepChain p c k =
      if ch.remaining = 1 then (s.setPage p (g.advanced c ch k)).chainAction p c ch.action
      else s.setPage p (g.advanced c ch k) := by
  have stepped : (s.setPage p g).updPage p (fun h => h.updChain c (·.stepped k)) =
      s.setPage p { g with chains := g.chains.set c.val (some (ch.stepped k)) } := by
    rw [State.updPage_setPage, Page.updChain_of_some there]
  simp only [State.stepChain, stepped, State.page_setPage_self, Vector.getElem_set_self]
  by_cases last : ch.remaining = 1
  · have zero : (ch.stepped k).remaining = 0 := by rw [Chain.stepped, last]
    have reloaded : ({ g with chains := g.chains.set c.val (some (ch.stepped k)) } : Page).reloaded c =
        g.advanced c ch k := by
      rw [Page.reloaded, Page.updChain_of_some (Vector.getElem_set_self _), Vector.set_set]
      simp only [Page.advanced, Chain.advanced, if_pos last]
      rfl
    rw [if_pos zero, if_pos last, ← reloaded, State.chainAction_reloaded]
    rfl
  · have left : (ch.stepped k).remaining ≠ 0 := by simp only [Chain.stepped]; omega
    rw [if_neg left, if_neg last, Page.advanced, Chain.advanced, if_neg last]
    rfl

end step

/-! ## What the action leaves -/

section acted

variable {s t w : State} {p : PageNum} {g v : Page} {c : ChainId}

theorem Page.wf_writeChecked (wf : g.cells.wf) (f : Field) (out : List Byte) : (g.writeChecked f out).cells.wf := by
  unfold Page.writeChecked
  split
  · exact Cells.wf_writeRun _ _ wf
  · exact wf

theorem Page.cells_failWalk (g : Page) (f : Field) (code : ErrorCode) : (g.failWalk f code).cells = g.cells := by
  rw [Page.failWalk_eq, Page.placedAt]
  split
  · rfl
  · split <;> rfl

theorem Page.wf_walk (wf : g.cells.wf) (fs : List Field) : (g.walk fs).page.cells.wf := by
  induction fs generalizing g with
  | nil => exact wf
  | cons f fs ih =>
    simp only [Page.walk]
    split
    · exact ih wf
    · exact ih (g := (g.writeChecked f _).updEntry f.number _) (Page.wf_writeChecked wf _ _)
    · rw [Page.cells_failWalk]
      exact wf

/-- R81 to R83: validation keeps the canonical form of the cells. -/
theorem Page.wf_validateSend (wf : g.cells.wf) : g.validateSend.page.cells.wf := by
  have first : g.validateCursorField.page.cells.wf := by
    unfold Page.validateCursorField
    split
    · split
      · split
        · exact Page.wf_writeChecked wf _ _
        · exact wf
      · exact wf
    · exact wf
  unfold Page.validateSend
  split
  · rename_i checked
    rw [checked] at first
    exact Page.wf_walk first _
  · exact first

/-- R6: promotion changes nothing of a page but its state. -/
theorem State.page_promote_state (s : State) (p : PageNum) :
    ∃ state, s.promote.page p = { s.page p with state := state } := by
  cases active : s.active with
  | some a => exact ⟨_, by rw [State.promote_active active]⟩
  | none =>
    cases ready : s.ready with
    | nil => exact ⟨_, by rw [State.promote_empty ready]⟩
    | cons q rest =>
      rw [State.page_promote active ready]
      split
      · subst_vars
        exact ⟨_, rfl⟩
      · exact ⟨_, rfl⟩

/-- R111: the page on which a follow move is made from state w after the page was g: its fields are defined as before,
while it is ACTIVE and outside error hold the operator may edit it, and it shows no notice but E-LINK, with no report entry
free. -/
structure State.Followable (w : State) (p : PageNum) (g : Page) : Prop where
  tended : g.Tended (w.page p)
  wf : (w.page p).cells.wf
  editing : w.active = some p → (w.page p).hold = none → w.editing p
  silent : (w.page p).hold = none → (w.page p).notice = none ∨ 8 ≤ w.reports.queue.length

variable (editing : (s.setPage p g).editing p)

include editing

/-- R90: a state reached from one in which page p could be edited, with the frame, the transaction and the page's mark as
they were. -/
theorem State.editing_of_same (txn : w.interp.txn = s.interp.txn) (frame : w.keys.frame = s.keys.frame)
    (mark : (w.page p).inFlight = g.inFlight) (active : w.active = some p) (hold : (w.page p).hold = none) :
    w.editing p := by
  obtain ⟨active', -, free, absent⟩ := editing
  refine ⟨active, hold, ?_, frame.trans absent⟩
  rw [← free]
  refine State.inhibited_of_marks (active.trans active'.symm) (by rw [txn]; rfl) fun q here => ?_
  obtain rfl := Option.some.inj (active'.symm.trans here)
  rw [mark, State.page_setPage_self]

variable (wf : g.cells.wf) (unnoticed : g.notice = none)

include wf unnoticed

/-- A page that stays as it is, or takes attentions as pending. -/
theorem State.followable_setPage (attention : AttentionSet) :
    (s.setPage p { g with attention := attention }).Followable p g := by
  have open_ := State.editing_setPage_of (m := { g with attention := attention }) editing rfl rfl
  refine ⟨?_, ?_, fun _ _ => open_, fun _ => .inl ?_⟩ <;> rw [State.page_setPage_self]
  · exact .of_same rfl rfl rfl rfl
  · exact wf
  · exact unnoticed

/-- R16, R65, R84, R85: what a send leaves. -/
theorem State.followable_send (id : Nat) : ((s.setPage p g).send p id).Followable p g := by
  have tended : g.Tended (((s.setPage p g).send p id).page p) := by
    have same := State.tended_send (s.setPage p g) p id p
    rwa [State.page_setPage_self] at same
  obtain ⟨v, failure, valid⟩ : ∃ v failure, g.validateSend = { page := v, failure := failure } := ⟨_, _, rfl⟩
  have wf' : v.cells.wf := by simpa only [valid] using Page.wf_validateSend wf
  have mark : v.inFlight = g.inFlight := by simpa only [valid] using (Page.edited_validateSend (g := g)).inFlight
  have hold : v.hold = g.hold := by simpa only [valid] using g.reworked_validateSend.hold
  have unnoticed' := Page.notice_validateSend unnoticed valid
  cases failure with
  | some code =>
    rw [State.send_of_failure valid] at tended ⊢
    have page : (State.page { s.setPage p (v.held code) with keys := { s.keys with queue := [] } } p) = v.held code :=
      State.page_setPage_self s p (v.held code)
    refine ⟨tended, ?_, fun _ free => ?_, fun free => ?_⟩
    · rw [page]; exact wf'
    all_goals rw [page] at free; cases free
  | none =>
    by_cases full : 8 ≤ s.reports.queue.length
    · rw [State.send_of_full valid full] at tended ⊢
      refine ⟨tended, ?_, fun _ _ => ?_, fun _ => .inr full⟩
      · rw [State.page_setPage_self]; exact wf'
      · exact State.editing_setPage_of editing hold mark
    · rw [State.send_of_free valid (Nat.not_le.1 full)] at tended ⊢
      obtain ⟨state, page⟩ := State.page_promote_state (s.sentOff p v id).leaveActive p
      have left : (s.sentOff p v id).leaveActive.page p = v.sent := State.page_setPage_self s p v.sent
      rw [left] at page
      have frame : (s.sentOff p v id).leaveActive.promote.keys.frame = s.keys.frame :=
        (State.unfed_promote (s.sentOff p v id).leaveActive).frame
      have txn : (s.sentOff p v id).leaveActive.promote.interp.txn = s.interp.txn := by rw [State.promote_interp]; rfl
      refine ⟨tended, ?_, State.editing_of_same editing txn frame ?_, fun _ => .inl ?_⟩ <;> rw [page]
      · exact wf'
      · exact mark
      · exact unnoticed'

/-- R110, R111: what a chain's action leaves. -/
theorem State.followable_chainAction (c : ChainId) (action : Action) :
    ((s.setPage p g).chainAction p c action).Followable p g := by
  cases action with
  | nothing => exact State.followable_setPage editing wf unnoticed g.attention
  | attn =>
    have stays := State.followable_setPage editing wf unnoticed g.attention
    rw [State.chainAction, State.raiseAttention_eq]
    split
    · exact ⟨stays.tended, stays.wf, stays.editing,
        fun _ => .inl ((congrArg (·.notice) (State.page_setPage_self s p g)).trans unnoticed)⟩
    · rw [State.page_setPage_self, State.setPage_setPage]
      exact State.followable_setPage editing wf unnoticed _
  | send => exact State.followable_send editing wf unnoticed 13

end acted

end Sys2Proof.Machine

/-! # Deposits

A read that passes its candidate check is deposited: its cells are written, its field's chain steps and acts, and the follow
move is made (R106 to R111, R119), in the words of `State.DepositTo`. -/

namespace Sys2Proof.Machine

/-! ## The follow move -/

section follow

variable {s w t : State} {p : PageNum} {g : Page} {f h : Field} {e : EntryItems} {d : Nat}

/-- R54, R85: a send on behalf of an exit is ENTER's, but for its id, with no notice or with no report entry free. -/
theorem State.exitOption_send_of_silent (editing : (s.setPage p g).editing p)
    (silent : g.notice = none ∨ 8 ≤ s.reports.queue.length) (entry : f.entry = some e) (option : e.exitOption = .send) :
    ∃ v, exec .enter (s.setPage p g) = .next v ∧ (s.setPage p g).exitOption p f = (s.setPage p g).sentWith v 14 := by
  refine ⟨(s.setPage p g).send p 0, ?_, ?_⟩
  · rw [exec_sendKey editing (.inl ⟨rfl, rfl⟩), State.page_setPage_self, State.setPage_setPage,
      State.send_unnoticed 0 silent]
  · simp only [State.exitOption, entry, option]
    exact State.send_eq_sentWith s p g 14 0

/-- R51 to R54, R65: a follow move out of a touched field. -/
theorem State.exitTo_moveCursor_of_silent (editing : (s.setPage p g).editing p) (law : g.FieldLaw) (wf : g.cells.wf)
    (silent : g.notice = none ∨ 8 ≤ s.reports.queue.length) (at_ : g.entryAt g.cursor = some f)
    (entry : f.entry = some e) (touched : e.touched = true) (outside : d < f.start ∨ f.start + f.length ≤ d) :
    (s.setPage p g).ExitTo p f e d ((s.setPage p g).moveCursor p d false) := by
  have exits : g.exitOf d false = some f := Page.exitOf_outside at_ outside
  have touched' : f.touched = true := by simp [Field.touched, entry, touched]
  have checked := Page.checkField_eq g entry
  obtain ⟨some_, upper, fits⟩ := law.extent f (Page.holds_of_entryAt at_).1
  simp only [State.ExitTo, State.page_setPage_self, State.setPage_setPage]
  refine ⟨fun code fails => State.moveCursor_of_fail exits touched' (checked.trans fails), fun out passes => ?_⟩
  obtain ⟨wf', reads⟩ := Page.cells_writeChecked (g := g) wf some_ fits entry (length_of_exitCheck passes (by simp))
  obtain ⟨fields, chains, current, enters, arrived⟩ := (g.passExit f out).arrive_entersTo d
  rw [Page.passExit_eq] at enters arrived
  refine ⟨(g.writeChecked f out).cells, wf', reads, fields, chains, current, enters, ?_⟩
  rw [State.moveCursor_of_pass exits touched' (checked.trans passes), Page.passExit_eq, arrived]
  refine ⟨fun option => ?_, fun option => ?_, fun option => ?_⟩
  · simp only [State.exitOption, entry, option]
  · rw [State.exitOption_attn entry option, State.page_setPage_self]
  · exact State.exitOption_send_of_silent (State.editing_setPage_of editing rfl rfl) silent entry option

theorem State.setPage_page (s : State) (p : PageNum) : s.setPage p (s.page p) = s := by
  simp [State.setPage, State.page]

/-- R48: the next ENTRY field depends on where the ENTRY fields start. -/
theorem Page.nextEntry_eq_of_starts (g : Page) (a : Nat) : g.nextEntry a =
    ((g.entryFields.map (·.start)).find? (fun b => a < b)).getD ((g.entryFields.map (·.start)).head?.getD 0) := by
  rw [List.find?_map, List.head?_map, Page.nextEntry, Function.comp_def]
  cases g.entryFields.find? (fun f => a < f.start) with
  | some f => rfl
  | none => cases g.entryFields.head? <;> rfl

theorem Page.nextEntry_of_defs {k : Page} (defs : k.fields.map Field.definition = g.fields.map Field.definition)
    (a : Nat) : k.nextEntry a = g.nextEntry a := by
  have starts (g : Page) : g.entryFields.map (·.start) =
      ((g.fields.map Field.definition).filter (·.isEntry)).map (·.start) := by
    have entry (f : Field) : f.definition.isEntry = f.isEntry := f.definition_isSome_entry
    simp only [Page.entryFields, List.filter_map, List.map_map, Function.comp_def, entry, Field.definition_start]
  rw [Page.nextEntry_eq_of_starts, Page.nextEntry_eq_of_starts, starts k, starts g, defs]

/-- R111: the follow move goes to its place, by an entry or by an exit. -/
theorem State.moveCursor_follows (followable : w.Followable p g) (law : g.FieldLaw) (active : w.active = some p)
    (hold : (w.page p).hold = none) (d : Nat) :
    ((w.page p).movesUnchecked d → ∃ fields chains current, (w.page p).entersTo d fields chains current ∧
      w.moveCursor p d false =
        w.setPage p { w.page p with cursor := d, fields := fields, chains := chains, current := current }) ∧
    ∀ (h : Field) (x : EntryItems), (w.page p).entryAt (w.page p).cursor = some h → h.entry = some x → x.touched = true →
      d < h.start ∨ h.start + h.length ≤ d → w.ExitTo p h x d (w.moveCursor p d false) := by
  refine ⟨fun unchecked => ?_, fun h x at_ entry touched outside => ?_⟩
  · have moved := State.moveCursor_of_movesUnchecked (s := w) (p := p) unchecked
    rwa [State.setPage_page] at moved
  · have exits := State.exitTo_moveCursor_of_silent (s := w) (g := w.page p)
      (by rw [State.setPage_page]; exact followable.editing active hold) (followable.tended.fieldLaw law) followable.wf
      (followable.silent hold) at_ entry touched outside
    rwa [State.setPage_page] at exits

end follow

/-! ## The deposit -/

section deposit

variable {s : State} {p : PageNum} {g : Page} {f : Field} {out : List Byte} {cells : Cells}

/-- R108: the page after a deposit has left these cells and chains. -/
def Page.depositedIn (g : Page) (f : Field) (cells : Cells) (chains : Vector (Option Chain) 4) : Page :=
  { g with
    cells := cells
    chains := chains
    fields := g.fields.map fun h => if h.number = f.number then
      { h with
        modified := true
        entry := h.entry.map fun x => { x with touched := false, checkError := none, hostMark := none } }
      else h
    notice := none }

/-- R108: what is written before a chain is stepped. -/
theorem State.deposited_eq (s : State) (p : PageNum) (f : Field) (out : List Byte) :
    (s.updPage p fun g => { ({ g with cells := g.cells.writeRun f.start out }.updField f.number (·.deposited)) with
      notice := none }).answerScan .ack =
    (s.scanAnswered .ack).setPage p
      ((s.page p).depositedIn f ((s.page p).cells.writeRun f.start out) (s.page p).chains) := rfl

theorem Page.memberOf_depositedIn (g : Page) (f : Field) (cells : Cells) (n : Nat) :
    (g.depositedIn f cells g.chains).memberOf n = g.memberOf n := rfl

/-- R108: a deposit into a field of no chain. -/
theorem State.deposit_of_noChain (noChain : (s.page p).memberOf f.number = none) :
    s.deposit p f out = (s.scanAnswered .ack).setPage p
      ((s.page p).depositedIn f ((s.page p).cells.writeRun f.start out) (s.page p).chains) := by
  unfold State.deposit
  simp only [State.deposited_eq, State.page_setPage_self, Page.memberOf_depositedIn, noChain]

/-- R108 to R111: a deposit into the member at place k of chain d. -/
theorem State.deposit_of_memberOf {d : ChainId} {ch : Chain} {k : Nat} (found : (s.page p).memberOf f.number = some (d, k))
    (there : (s.page p).chains[d.val] = some ch) :
    let w := ((s.scanAnswered .ack).setPage p
      ((s.page p).depositedIn f ((s.page p).cells.writeRun f.start out) (s.page p).chains)).stepChain p d k
    s.deposit p f out = if ch.follow then w.followMove p f else w := by
  have there' : ((s.page p).depositedIn f ((s.page p).cells.writeRun f.start out) (s.page p).chains).chains[d.val] =
      some ch := there
  unfold State.deposit
  simp only [State.deposited_eq, State.page_setPage_self, Page.memberOf_depositedIn, found, there', Option.any_some]

/-- R110: a send on behalf of a chain is ENTER's, but for its id. -/
theorem State.chainAction_send (editing : (s.setPage p g).editing p) (unnoticed : g.notice = none) (d : ChainId) :
    ∃ v, exec .enter (s.setPage p g) = .next v ∧
      (s.setPage p g).chainAction p d .send = (s.setPage p g).sentWith v 13 := by
  refine ⟨(s.setPage p g).send p 0, ?_, State.send_eq_sentWith s p g 13 0⟩
  rw [exec_sendKey editing (.inl ⟨rfl, rfl⟩), State.page_setPage_self, State.setPage_setPage,
    State.send_unnoticed 0 (.inl unnoticed)]

/-- R110: a chain's attention is raised, or recorded as pending. -/
theorem State.chainAction_attn (s : State) (p : PageNum) (g : Page) (d : ChainId) :
    (s.setPage p g).chainAction p d .attn =
      (s.setPage p g).attended p (.chain d) { g.attention with chains := g.attention.chains.set d.val true } := by
  simp only [State.chainAction, State.raiseAttention_eq, State.attended, State.page_setPage_self, AttentionSet.record]

/-- R106: a deposit's cells stand in the field, and the others where they stood. -/
theorem Page.read_writeRun_field (law : g.FieldLaw) (wf : g.cells.wf) (hf : f ∈ g.fields)
    (length : out.length = f.length) (a : Nat) : (g.cells.writeRun f.start out).read a =
      if f.start ≤ a ∧ a < f.start + f.length then out.getD (a - f.start) 0x00#8 else g.cells.read a := by
  obtain ⟨some_, -, fits⟩ := law.extent f hf
  rw [Cells.read_writeRun_inside wf (by omega) (by omega), length]

/-- R108, R109: the page that a deposit into a member of chain d leaves, before the chain's action. -/
def Page.depositedStep (g : Page) (f : Field) (out : List Byte) (d : ChainId) (ch : Chain) (k : Nat) : Page :=
  g.depositedIn f (g.cells.writeRun f.start out) (g.chains.set d.val (some (ch.advanced k)))

theorem Page.defs_depositedStep (g : Page) (f : Field) (out : List Byte) (d : ChainId) (ch : Chain) (k : Nat) :
    (g.depositedStep f out d ch k).fields.map Field.definition = g.fields.map Field.definition :=
  (g.tended_deposit f (g.cells.writeRun f.start out)).defs

theorem Page.fieldLaw_depositedStep (law : g.FieldLaw) (d : ChainId) (ch : Chain) (k : Nat) :
    (g.depositedStep f out d ch k).FieldLaw :=
  have law' := (g.tended_deposit f (g.cells.writeRun f.start out)).fieldLaw law
  ⟨law'.cursor, law'.extent, law'.order, law'.numbers, law'.named, law'.links, law'.linkOnce⟩

/-- R108, R109: the state that a deposit into the member at place k of chain d leaves, before the chain's action. -/
def State.steppedIn (s : State) (p : PageNum) (f : Field) (out : List Byte) (d : ChainId) (ch : Chain) (k : Nat) : State :=
  (s.scanAnswered .ack).setPage p ((s.page p).depositedStep f out d ch k)

/-- R110: the state after the chain's action, which is taken with the last deposit of its count. -/
def State.actedIn (s : State) (p : PageNum) (f : Field) (out : List Byte) (d : ChainId) (ch : Chain) (k : Nat) : State :=
  if ch.remaining = 1 then (s.steppedIn p f out d ch k).chainAction p d ch.action else s.steppedIn p f out d ch k

section member

variable {d : ChainId} {ch : Chain} {k : Nat}

/-- R108 to R111: a deposit into a member of a chain: the chain's step, its action, and the follow move. -/
theorem State.deposit_of_member (chainLaw : (s.page p).ChainLaw) (there : (s.page p).chains[d.val] = some ch)
    (member : ch.members[k]? = some f.number) :
    s.deposit p f out = if ch.follow then (s.actedIn p f out d ch k).followMove p f else s.actedIn p f out d ch k := by
  obtain ⟨-, -, -, least, -⟩ := chainLaw.record d ch there
  rw [State.deposit_of_memberOf (chainLaw.memberOf there member) there, State.stepChain_eq (g := (s.page p).depositedIn f
    ((s.page p).cells.writeRun f.start out) (s.page p).chains) there least]
  rfl

/-- R111: with no follow flag, and on a page that has left ACTIVE or entered error hold, no follow move is made. -/
theorem State.deposit_stays (chainLaw : (s.page p).ChainLaw) (there : (s.page p).chains[d.val] = some ch)
    (member : ch.members[k]? = some f.number) (stays : ch.follow = false ∨ (s.actedIn p f out d ch k).active ≠ some p ∨
      ((s.actedIn p f out d ch k).page p).hold ≠ none) : s.deposit p f out = s.actedIn p f out d ch k := by
  rw [State.deposit_of_member chainLaw there member]
  split
  · rename_i follow
    obtain off | elsewhere | held := stays
    · exact absurd follow (Bool.eq_false_iff.1 off)
    · exact if_neg fun both => elsewhere both.1
    · exact if_neg fun both => held both.2
  · rfl

variable (editing : s.editing p)

include editing

theorem State.editing_steppedIn : (s.steppedIn p f out d ch k).editing p :=
  State.editing_setPage (s := s.scanAnswered .ack) editing rfl rfl

/-- R110: the chain's action, by its kind. -/
theorem State.actedIn_outcome (last : ch.remaining = 1) :
    (ch.action = .nothing → s.actedIn p f out d ch k = s.steppedIn p f out d ch k) ∧
    (ch.action = .attn → s.actedIn p f out d ch k = (s.steppedIn p f out d ch k).attended p (.chain d)
      { (s.page p).attention with chains := (s.page p).attention.chains.set d.val true }) ∧
    (ch.action = .send → ∃ v, exec .enter (s.steppedIn p f out d ch k) = .next v ∧
      s.actedIn p f out d ch k = (s.steppedIn p f out d ch k).sentWith v 13) := by
  rw [State.actedIn, if_pos last]
  refine ⟨fun action => ?_, fun action => ?_, fun action => ?_⟩ <;> rw [action]
  · rfl
  · exact State.chainAction_attn (s.scanAnswered .ack) p _ d
  · exact State.chainAction_send (State.editing_steppedIn editing) rfl d

/-- R111: what the chain's action leaves for the follow move. -/
theorem State.followable_actedIn (wf : (s.page p).cells.wf) :
    (s.actedIn p f out d ch k).Followable p ((s.page p).depositedStep f out d ch k) := by
  have wf' : ((s.page p).depositedStep f out d ch k).cells.wf := Cells.wf_writeRun f.start out wf
  have editing' := State.editing_steppedIn (f := f) (out := out) (d := d) (ch := ch) (k := k) editing
  unfold State.actedIn
  split
  · exact State.followable_chainAction editing' wf' rfl d ch.action
  · exact State.followable_setPage editing' wf' rfl ((s.page p).depositedStep f out d ch k).attention

/-- R111: the follow move goes to the next ENTRY field behind the one deposited into. -/
theorem State.deposit_follows (chainLaw : (s.page p).ChainLaw) (wf : (s.page p).cells.wf)
    (there : (s.page p).chains[d.val] = some ch) (member : ch.members[k]? = some f.number) (follow : ch.follow = true)
    (active : (s.actedIn p f out d ch k).active = some p) (hold : ((s.actedIn p f out d ch k).page p).hold = none) :
    s.deposit p f out = (s.actedIn p f out d ch k).moveCursor p ((s.page p).nextEntry f.start) false := by
  have followable := State.followable_actedIn (f := f) (out := out) (d := d) (ch := ch) (k := k) editing wf
  rw [State.deposit_of_member chainLaw there member, if_pos follow, State.followMove, if_pos ⟨active, hold⟩,
    Page.nextEntry_of_defs (followable.tended.defs.trans (Page.defs_depositedStep _ _ _ _ _ _))]

/-- R108 to R111, R119: what a deposit makes of the state. -/
theorem State.depositTo_deposit (law : (s.page p).FieldLaw) (chainLaw : (s.page p).ChainLaw)
    (wf : (s.page p).cells.wf) (hf : f ∈ (s.page p).fields) (length : out.length = f.length) :
    s.DepositTo p f out (s.deposit p f out) := by
  refine ⟨_, Cells.wf_writeRun f.start out wf, Page.read_writeRun_field law wf hf length, fun free => ?_,
    fun d ch k there member => ⟨s.actedIn p f out d ch k, ?_, State.deposit_stays chainLaw there member,
      fun next follow active hold place => ?_⟩⟩
  · exact State.deposit_of_noChain (Page.memberOf_none.2 free)
  · by_cases last : ch.remaining = 1
    · obtain ⟨nothing, attn, send⟩ := State.actedIn_outcome (f := f) (out := out) (d := d) (k := k) editing last
      rw [if_pos last]
      split
      · exact nothing ‹_›
      · exact attn ‹_›
      · exact send ‹_›
    · rw [if_neg last, State.actedIn, if_neg last]
      rfl
  · have goes : (s.page p).nextEntry f.start = next := Page.nextEntry_eq law (place.imp_right .inl)
    rw [State.deposit_follows editing chainLaw wf there member follow active hold, goes]
    exact State.moveCursor_follows (State.followable_actedIn editing wf) (Page.fieldLaw_depositedStep law d ch k) active
      hold next

end member

end deposit

end Sys2Proof.Machine

/-! # Reads

The field to which a read goes, the candidate that it makes there, and what is done with it (R105 to R113). -/

namespace Sys2Proof.Machine

section reads

variable {s : State} {p : PageNum} {g : Page} {f : Field} {e : EntryItems} {characters folded out : List Byte}

/-! ## The candidate -/

/-- R106: the filter admits what the class admits, character by character, and folds it so. -/
theorem filtered_eq_some_iff : filtered e.cls e.signed characters = some folded ↔ characters.Forall₂ e.Admits folded := by
  induction characters generalizing folded with
  | nil => simp [filtered, eq_comm]
  | cons b bs ih =>
    rw [List.forall₂_cons_left_iff]
    constructor
    · intro h
      unfold filtered at h
      split at h
      · rename_i c cs admitted rest
        obtain rfl := Option.some.inj h
        exact ⟨c, cs, admittedCode_eq_some_iff.1 admitted, ih.1 rest, rfl⟩
      · cases h
    · rintro ⟨c, cs, admits, rest, rfl⟩
      simp only [filtered, admittedCode_eq_some_iff.2 admits, ih.2 rest]

/-- R106, R107: a candidate passes where the characters fit the field. -/
theorem candidateCells_eq_some_iff (entry : f.entry = some e) :
    candidateCells f characters = some out ↔ ∃ folded, f.Fits e characters folded out := by
  unfold candidateCells
  simp only [entry]
  constructor
  · intro h
    split at h
    · cases h
    · rename_i room
      split at h
      · cases h
      · rename_i folded admitted
        split at h
        · rename_i cells passes
          obtain rfl := Option.some.inj h
          exact ⟨folded, Nat.not_lt.1 room, filtered_eq_some_iff.1 admitted, passes⟩
        · cases h
  · rintro ⟨folded, room, admitted, passes⟩
    rw [if_neg (Nat.not_lt.2 room)]
    simp only [filtered_eq_some_iff.2 admitted, passes]

/-- R106: a candidate fills its field. -/
theorem Field.Fits.length_out (fits : f.Fits e characters folded out) : out.length = f.length := by
  obtain ⟨room, admitted, passes⟩ := fits
  refine length_of_exitCheck passes ?_
  have := admitted.length_eq
  simp only [List.length_append, List.length_replicate]
  omega

/-! ## What is done with a read -/

/-- R105, steps 3 and 4: the field to which the read goes is found. -/
theorem Page.scanTarget_of_readGoesTo (law : g.FieldLaw) (hf : f ∈ g.fields) (entry : f.entry = some e)
    (source : e.source ≠ .key) (goes : g.ReadGoesTo f) : g.scanTarget = some f := by
  unfold Page.scanTarget
  obtain ⟨current, at_⟩ | ⟨d, ch, current, there, member⟩ := goes
  · have scans : f.entry.any (·.source ≠ .key) = true := by simp [entry, source]
    simp only [current, Option.bind_none, at_, Option.filter_some, scans, if_true]
  · simp only [current, Option.bind_some, there, member, law.fieldNumbered hf rfl]

theorem State.rejectScan_eq (s : State) (p : PageNum) : s.rejectScan p =
    (s.scanAnswered .nakReject).setPage p { s.page p with notice := some .sReject } := rfl

/-- R106, R107: a read that does not fit is refused. -/
theorem State.takeRead_of_unfit (entry : f.entry = some e) (unfit : ∀ folded out, ¬f.Fits e characters folded out)
    (confirming : Bool) : s.takeRead p f confirming characters = s.rejectScan p := by
  have none_ : candidateCells f characters = none := Option.eq_none_iff_forall_ne_some.2 fun out passes => by
    obtain ⟨folded, fits⟩ := (candidateCells_eq_some_iff entry).1 passes
    exact unfit folded out fits
  simp only [State.takeRead, none_]

/-- R107, R112: a read that fits is held in a double-read field where it confirms none, and else deposited. -/
theorem State.takeRead_of_fits (entry : f.entry = some e) (fits : f.Fits e characters folded out) (confirming : Bool) :
    s.takeRead p f confirming characters =
      if e.doubleRead && !confirming then s.awaitConfirm p f characters else s.deposit p f out := by
  simp only [State.takeRead, (candidateCells_eq_some_iff entry).2 ⟨folded, fits⟩, entry, Option.any_some]

/-- R105: with no record a read goes to its field. -/
theorem State.routeFrame_of_readGoesTo (law : (s.page p).FieldLaw) (confirm : s.scan.confirm = none)
    (hf : f ∈ (s.page p).fields) (entry : f.entry = some e) (source : e.source ≠ .key) (goes : (s.page p).ReadGoesTo f) :
    s.routeFrame p characters = s.takeRead p f false characters := by
  simp only [State.routeFrame, confirm, State.routeByPage, Page.scanTarget_of_readGoesTo law hf entry source goes]

/-- R105, step 1: an identical read goes to the record's field. -/
theorem State.routeFrame_of_identical (law : (s.page p).FieldLaw) (hf : f ∈ (s.page p).fields)
    (confirm : s.scan.confirm = some { characters := characters, page := p, field := f.number }) :
    s.routeFrame p characters = s.dropConfirm.takeRead p f true characters := by
  simp only [State.routeFrame, confirm, if_true, law.fieldNumbered hf rfl]

/-- R105, step 2: another read is taken as with no record. -/
theorem State.routeFrame_of_other {r : ConfirmRecord} (confirm : s.scan.confirm = some r)
    (other : r.characters ≠ characters) :
    s.routeFrame p characters = s.dropConfirm.routeFrame p characters := by
  simp only [State.routeFrame, confirm, if_neg other, State.dropConfirm_scan_confirm]

/-- R105: a frame is routed on a page that the operator may edit. -/
theorem exec_scanFrame_of_editing (framed : s.frameFree) (editing : s.editing p) (least : 1 ≤ characters.length)
    (most : characters.length ≤ 64) :
    exec (.scanFrame (byteOf characters.length) characters) s = .next (s.routeFrame p characters) := by
  obtain ⟨active, hold, free, -⟩ := editing
  exact exec_scanFrame_of_free framed active hold free least most

end reads

/-- Settles O53: the read is routed to its field, where its candidate is refused or deposited. -/
theorem scanDepositsIntoTheField : Obligations.ScanDepositsIntoTheField := by
  intro s p f e characters framed editing law chainLaw wf confirm hf entry source goes least most c
  have routed : exec c s = .next (s.takeRead p f false characters) := by
    rw [exec_scanFrame_of_editing framed editing least most,
      State.routeFrame_of_readGoesTo law confirm hf entry source goes]
  refine ⟨fun unfit => ?_, fun folded out single fits => ⟨s.deposit p f out, ?_, ?_⟩⟩
  · rw [routed, State.takeRead_of_unfit entry unfit, State.rejectScan_eq]
  · rw [routed, State.takeRead_of_fits entry fits, single]
    rfl
  · exact State.depositTo_deposit editing law chainLaw wf hf fits.length_out

/-- Settles O54: a first read is held, an identical one deposited, and another routed as with no record. -/
theorem confirmReadNeedsTwoReads : Obligations.ConfirmReadNeedsTwoReads := by
  intro s p characters framed editing law chainLaw wf least most c dropped
  have routed : exec c s = .next (s.routeFrame p characters) := exec_scanFrame_of_editing framed editing least most
  have editing' : dropped.editing p := editing
  refine ⟨fun r confirm other => ?_, fun f e folded out hf entry fits =>
    ⟨fun confirm goes source double => ?_, fun confirm => ⟨dropped.deposit p f out, ?_, ?_⟩⟩⟩
  · rw [routed, State.routeFrame_of_other confirm other]
    exact (exec_scanFrame_of_editing (s := dropped) framed editing' least most).symm
  · rw [routed, State.routeFrame_of_readGoesTo law confirm hf entry source goes, State.takeRead_of_fits entry fits,
      double]
    rfl
  · rw [routed, State.routeFrame_of_identical law hf confirm, State.takeRead_of_fits entry fits, Bool.not_true,
      Bool.and_false]
    rfl
  · exact State.depositTo_deposit editing' law chainLaw wf hf fits.length_out

end Sys2Proof.Machine

/-! # The framing of the stream

Outside orders a byte opens a transaction, ends a skip or is discarded, and during a stall no byte is taken (R121, R128,
R130). -/

namespace Sys2Proof.Machine

/-- R130: without a stall the stream port takes a single byte. -/
theorem State.takeStream_byte {s : State} (free : s.interp.stalled = none) (b : Byte) :
    s.takeStream [b] = s.interpretByte b := by
  rw [State.takeStream_cons, State.takeStream_nil, State.takeStreamByte, free]
  rfl

/-- R121: a byte taken between transactions. -/
theorem State.interpretByte_between {s : State} (state : s.interp.state = .between) (b : Byte) :
    s.interpretByte b = if b = 0x02#8 then s.openTransaction else s := by
  simp only [State.interpretByte, state]

/-- R128: a byte taken during a skip. -/
theorem State.interpretByte_skipping {s : State} (state : s.interp.state = .skipping) (b : Byte) :
    s.interpretByte b = if b = 0x03#8 then { s with interp.state := .between }
      else if b = 0x02#8 then s.openTransaction else s := by
  simp only [State.interpretByte, state]

/-- Settles O13: START is told apart from every other byte. -/
theorem bytesBetweenTransactions : Obligations.BytesBetweenTransactions := by
  intro s state free
  have taken (b : Byte) : s.takeStream [b] = if b = 0x02#8 then s.openTransaction else s :=
    (State.takeStream_byte free b).trans (State.interpretByte_between state b)
  exact ⟨congrArg Host.Outcome.next (taken 0x02#8),
    fun b other => congrArg Host.Outcome.next ((taken b).trans (if_neg other))⟩

/-- Settles O14: END and START are told apart from every other byte. -/
theorem bytesSkipped : Obligations.BytesSkipped := fun _ b state free =>
  congrArg Host.Outcome.next ((State.takeStream_byte free b).trans (State.interpretByte_skipping state b))

/-- Settles O15: the command's bytes are offered to a port that takes none. -/
theorem stallHoldsTheStreamPort : Obligations.StallHoldsTheStreamPort := by
  intro s c stalled port
  obtain ⟨bytes, sent⟩ := exec_of_onStreamPort port s
  rw [sent, State.takeStream_stalled s bytes (Option.isSome_iff_ne_none.2 stalled)]

end Sys2Proof.Machine

/-! # Headers that name no page

A header's bytes are judged together once the last has been taken (R122): refused where the kind byte names no kind or the
page byte no page, accepted as it stands for a kind whose work waits for END (R123). -/

namespace Sys2Proof.Machine

section headers

variable {s : State} {k : Kind} {page tag : Byte} {operands : List Byte}

/-- R122: the number of header operands of a kind other than ERASE, whose count byte gives the number of its slots. -/
def headerOperands : Kind → Nat
  | .reopen | .close => 1
  | .setup => 3
  | .store => 9
  | .load | .amend | .post | .restart | .query | .erase | .pause | .resume => 0

/-- R122: a header waits for its kind's operands. -/
theorem headerComplete_code (fixed : k ≠ .erase) :
    headerComplete (k.code :: page :: tag :: operands) = true ↔ headerOperands k ≤ operands.length := by
  simp only [headerComplete, kindOfByte_code]
  cases k with
  | erase => exact absurd rfl fixed
  | _ => simp [headerOperands]

/-- R122: kind, page and tag belong to every header. -/
theorem headerComplete_short {header : List Byte} (short : header.length < 3) : headerComplete header = false := by
  match header, short with
  | [], _ | [_], _ | [_, _], _ => rfl

/-- R122: a header of a kind with a fixed number of operands is judged with its last byte. -/
theorem State.takeStream_fixedHeader (due : s.headerDue) (fixed : k ≠ .erase)
    (length : operands.length = headerOperands k) :
    s.takeStream (k.code :: page :: tag :: operands) =
      (s.withTxn (.ofHeader (k.code :: page :: tag :: operands).dropLast)).judgeHeader
        (.ofHeader (k.code :: page :: tag :: operands)) := by
  refine State.takeStream_header s _ due (fun n _ below => ?_) ((headerComplete_code fixed).2 length.ge)
  match n with
  | 0 | 1 | 2 => exact headerComplete_short (by simp)
  | n + 3 =>
    simp only [List.length_cons] at below
    rw [List.take_succ_cons, List.take_succ_cons, List.take_succ_cons, ← Bool.not_eq_true, headerComplete_code fixed]
    simp only [List.length_take]
    omega

theorem Transaction.kind_ofHeader (rest : List Byte) : (Transaction.ofHeader (k.code :: rest)).kind = some k :=
  kindOfByte_code k

/-- R122, R123: three kinds are accepted with any page byte, and act at END. -/
theorem State.takeStream_waiting (due : s.headerDue) (waits : k = .restart ∨ k = .setup ∨ k = .query)
    (length : operands.length = headerOperands k) :
    s.takeStream (k.code :: page :: tag :: operands) = s.accept (.ofHeader (k.code :: page :: tag :: operands)) := by
  rw [State.takeStream_fixedHeader due (by rcases waits with rfl | rfl | rfl <;> nofun) length, State.judgeHeader,
    Transaction.kind_ofHeader]
  rcases waits with rfl | rfl | rfl <;> rfl

/-- R123, step 2: the kinds that name a page are refused BADPAGE with a page byte that names none. -/
theorem State.takeStream_badPage (due : s.headerDue) (names : k.namesPage = true)
    (length : operands.length = headerOperands k) (above : 5 < page.toNat) :
    s.refusedTo (s.takeStream (k.code :: page :: tag :: operands)) tag .badPage 0 := by
  have noPage : (Transaction.ofHeader (k.code :: page :: tag :: operands)).page = none := by
    rw [Transaction.page, Transaction.kind_ofHeader]
    simp [Transaction.ofHeader, names, pageOfByte, Nat.not_lt.2 above]
  have judged (u : State) : u.judgeHeader (.ofHeader (k.code :: page :: tag :: operands)) =
      u.refuse (.ofHeader (k.code :: page :: tag :: operands)) .badPage 0 := by
    simp only [State.judgeHeader, Transaction.kind_ofHeader, noPage]
    cases k with
    | load | amend | post | reopen | close => rfl
    | _ => cases names
  rw [State.takeStream_fixedHeader due (by rintro rfl; cases names) length, judged]
  exact State.refusedTo_refuse s _ _ .badPage 0

/-- R122: the kind bytes are the codes of the kinds. -/
theorem kindOfByte_of_not_kindBytes {b : Byte} (h : kindBytes.contains b = false) : kindOfByte b = none := by
  have other : ∀ k : Kind, k.code ≠ b := by
    rintro k rfl
    cases k <;> cases h
  exact List.find?_eq_none.2 fun k _ => by simpa using other k

/-- R123, step 1: a kind byte that names no kind. -/
theorem State.takeStream_badKind {kind : Byte} (due : s.headerDue) (unknown : kindOfByte kind = none) :
    s.refusedTo (s.takeStream [kind, page, tag]) tag .badOrder 0 := by
  have named : (Transaction.ofHeader [kind, page, tag]).kind = none := unknown
  rw [State.takeStream_header s _ due (fun n _ below => headerComplete_short (by simp at below ⊢; omega))
    (by simp [headerComplete, unknown]), State.judgeHeader, named]
  exact State.refusedTo_refuse s _ _ .badOrder 0

end headers

/-- Settles O19: the first two checks of a header. -/
theorem headerKindAndPageChecked : Obligations.HeaderKindAndPageChecked := by
  intro s kind page tag serial due
  refine ⟨fun unknown => ⟨_, rfl, State.takeStream_badKind due (kindOfByte_of_not_kindBytes unknown)⟩,
    fun above c member => ?_⟩
  simp only [List.mem_cons, List.not_mem_nil, or_false] at member
  rcases member with rfl | rfl | rfl | rfl | rfl
  · exact ⟨_, rfl, State.takeStream_badPage (k := .load) (operands := []) due rfl rfl above⟩
  · exact ⟨_, rfl, State.takeStream_badPage (k := .amend) (operands := []) due rfl rfl above⟩
  · exact ⟨_, rfl, State.takeStream_badPage (k := .post) (operands := []) due rfl rfl above⟩
  · exact ⟨_, rfl, State.takeStream_badPage (k := .reopen) (operands := [serial]) due rfl rfl above⟩
  · exact ⟨_, rfl, State.takeStream_badPage (k := .close) (operands := [serial]) due rfl rfl above⟩

/-- Settles O20: the three kinds are accepted, each with its own operands. -/
theorem pagelessHeadersWait : Obligations.PagelessHeadersWait := fun _ _ _ a b c due =>
  ⟨congrArg Host.Outcome.next (State.takeStream_waiting (k := .restart) (operands := []) due (by simp) rfl),
    congrArg Host.Outcome.next (State.takeStream_waiting (k := .setup) (operands := [a, b, c]) due (by simp) rfl),
    congrArg Host.Outcome.next (State.takeStream_waiting (k := .query) (operands := []) due (by simp) rfl)⟩

end Sys2Proof.Machine

/-! # QUERY

The END of a QUERY answers with the STATUS report, whose length the number of READY pages fixes (R142, R153). -/

namespace Sys2Proof.Machine

/-- R142: a QUERY has no END effects but its answer. -/
theorem State.reachEnd_query {s : State} {t : Transaction} (kind : t.kind = some .query) :
    s.reachEnd t = (s.answer (.status s.statusReport)).closeTransaction t .between := by
  simp only [State.reachEnd, State.endEffects, State.endReport, kind]

theorem length_flatMap_of_length_eq {α : Type} {l : List α} {f : α → List Byte} {n : Nat}
    (h : ∀ a ∈ l, (f a).length = n) : (l.flatMap f).length = l.length * n := by
  rw [List.length_flatMap, List.sum_eq_card_nsmul _ n (by simpa using h), List.length_map, smul_eq_mul]

theorem length_twoBytes (n : Nat) : (twoBytes n).length = 2 := rfl

/-- R153: six pages with 5 bytes each, the ready queue behind its length, and 24 slots of 3 bytes and a label. -/
theorem StatusReport.length_body {r : StatusReport} {n : Nat} (pages : r.pages.length = 6) (slots : r.slots.length = 24)
    (labels : ∀ slot ∈ r.slots, slot.label.length = n) : r.body.length = 108 + 24 * n + r.ready.length := by
  have pageBytes := length_flatMap_of_length_eq (l := r.pages) (n := 5)
    (f := fun g => [g.state.code, byteOf g.fieldCount, g.serial, markByte g.overdue, markByte g.unsent]) fun _ _ => rfl
  have slotBytes := length_flatMap_of_length_eq (l := r.slots) (n := 3 + n)
    (f := fun slot => slot.state.code :: twoBytes slot.used ++ slot.label) fun slot there => by
      rw [List.cons_append, List.length_cons, List.length_append, length_twoBytes, labels slot there]
      omega
  simp only [StatusReport.body, List.length_append, List.length_cons, List.length_nil, List.length_map,
    length_twoBytes, pageBytes, slotBytes, pages, slots]
  omega

/-- Settles O38: the answer is the STATUS report of the state at END. -/
theorem queryEnds : Obligations.QueryEnds := by
  intro s t due
  obtain ⟨-, ht, kind, -, -⟩ := id due
  refine ⟨s.statusReport, ⟨_, exec_endTransaction due, ?_⟩, rfl, rfl, rfl, rfl, rfl, rfl, rfl, fun labels u => ?_⟩
  · rw [State.reachEnd_query kind]
    exact State.closedTo_none _ _ (Transaction.page_of_kind kind rfl) (State.inhibited_of_kind ht kind (by simp))
  · have body : s.statusReport.body.length = 300 + s.ready.length :=
      StatusReport.length_body (n := 8) rfl rfl fun slot there => by
        obtain ⟨n, -, rfl⟩ := List.mem_map.1 there
        exact labels n
    simp only [State.reportBytes, State.reportBody, List.length_cons, List.length_append, length_twoBytes, body]
    omega

end Sys2Proof.Machine

/-! # Orders that write a page: SETPOS, CURSOR, MESSAGE, TEXT, REPEAT and CLEAR

An order of text writes its codes from the write position on, which goes around after the last cell (R131). -/

namespace Sys2Proof.Machine

section writing

variable {s : State} {t : Transaction} {k : Kind} {p : PageNum} {o : OrderCode} {operands bytes : List Byte} {n : Byte}

/-- Section 7.5: the kinds that change a page allow the orders that write it; a POST leaves the cursor. -/
theorem OrderCode.allowedIn_of_writing (kind : k = .load ∨ k = .amend ∨ k = .reopen ∨ k = .post) :
    k ≠ .store ∧
    (∀ o : OrderCode, o = .setpos ∨ o = .text ∨ o = .repeatChar ∨ o = .clear ∨ o = .message → o.allowedIn k = true) ∧
    (k ≠ .post → OrderCode.cursor.allowedIn k = true) := by
  rcases kind with rfl | rfl | rfl | rfl
  all_goals exact ⟨nofun, by rintro o (rfl | rfl | rfl | rfl | rfl) <;> rfl, by decide⟩

/-- R124: an order whose first byte counts the others is read with the last of them, unless the count is refused. -/
theorem operandsRead_counted (taken : ∀ rest : List Byte, operandsRead o (n :: rest) =
    if n.toNat ≤ rest.length then .complete else .more) (length : bytes.length = n.toNat) :
    (∀ m, 1 ≤ m → m < (n :: bytes).length → operandsRead o ((n :: bytes).take m) = .more) ∧
      operandsRead o (n :: bytes) = .complete := by
  refine ⟨fun m from_ below => ?_, by rw [taken, if_pos length.ge]⟩
  obtain ⟨m, rfl⟩ := Nat.exists_eq_add_of_le' from_
  rw [List.take_succ_cons, taken, if_neg]
  simp at below ⊢
  omega

/-- R132: TEXT refuses the count 0. -/
theorem operandsRead_text (some_ : n ≠ 0x00#8) (rest : List Byte) : operandsRead .text (n :: rest) =
    if n.toNat ≤ rest.length then .complete else .more :=
  if_neg fun zero => some_ (BitVec.eq_of_toNat_eq zero)

/-- R138: MESSAGE refuses a count above 56. -/
theorem operandsRead_message (most : n.toNat ≤ 56) (rest : List Byte) : operandsRead .message (n :: rest) =
    if n.toNat ≤ rest.length then .complete else .more :=
  if_neg (Nat.not_lt.2 most)

/-- R182: a count's two bytes, high byte first, are read as the count. -/
theorem countOf_extractLsb' (count : BitVec 16) :
    countOf (count.extractLsb' 8 8) (count.extractLsb' 0 8) = count.toNat := by
  simp only [countOf, BitVec.extractLsb'_toNat, Nat.shiftRight_eq_div_pow]
  omega

/-- R131: what is left of an order that has set the write position. -/
theorem State.settleOrder_placed (due : s.orderDue t k) (u : State) (n : Nat) :
    State.settleOrder (t.reading o operands) (.done ((u.withTxn (t.reading o operands)).setWritePos n)) =
      u.withTxn { t.carried with writePos := n } := by
  rw [← Transaction.reading_carried due]
  rfl

/-- R125, R134: what is left of an order that has been skipped and has set the write position. -/
theorem State.settleOrder_skippedPast (due : s.orderDue t k) (n : Nat) :
    State.settleOrder (t.reading o operands) (.skipped ((s.withTxn (t.reading o operands)).setWritePos n)) =
      s.withTxn { t.skipped with writePos := n } := by
  obtain ⟨-, -, -, order, -⟩ := due
  simp only [State.settleOrder, State.skipOrder, State.setWritePos, State.updTxn, State.withTxn, Option.map_some,
    Transaction.skip, Transaction.reading, Transaction.skipped, nextIndex_eq, order]

/-- R131: the operands in their ranges are a position. -/
theorem positionOf_eq {row column : Byte} (rows : row.toNat ≤ 23) (columns : column.toNat ≤ 79) :
    positionOf row column = some (row.toNat * 80 + column.toNat) := if_pos ⟨rows, columns⟩

/-- R132: the code that is written for a byte. -/
theorem substituted_eq (b : Byte) : substituted b = if 0x20 ≤ b.toNat ∧ b.toNat ≤ 0x7E then b else 0x3F#8 := by
  simp only [substituted, printable, Bool.and_eq_true, decide_eq_true_eq]

end writing

/-- Settles O24: the orders carried out, each with what it sets. -/
theorem positionAndMessageOrders : Obligations.PositionAndMessageOrders := by
  intro s t k p due page kind
  obtain ⟨store, allowed, allowed'⟩ := OrderCode.allowedIn_of_writing kind
  refine ⟨fun row column rows columns => ⟨?_, fun other => ?_⟩, fun n bytes most length => ?_⟩
  · refine congrArg Host.Outcome.next ((State.takeStream_pageOrder (o := .setpos) (operands := [row, column]) (n := 2) due
      page (allowed _ (by simp)) store nofun (fun _ => rfl) rfl (List.cons_ne_nil _ _)).trans ?_)
    simp only [State.pageOrder, List.getD_cons_zero, List.getD_cons_succ, positionOf_eq rows columns]
    exact State.settleOrder_placed due s _
  · refine congrArg Host.Outcome.next ((State.takeStream_pageOrder (o := .cursor) (operands := [row, column]) (n := 2) due
      page (allowed' other) store nofun (fun _ => rfl) rfl (List.cons_ne_nil _ _)).trans ?_)
    simp only [State.pageOrder, List.getD_cons_zero, List.getD_cons_succ, positionOf_eq rows columns]
    exact State.settleOrder_done due fun g => { g with cursor := row.toNat * 80 + column.toNat }
  · obtain ⟨more, read⟩ := operandsRead_counted (operandsRead_message most) length
    refine congrArg Host.Outcome.next ((State.takeStream_pageOrder_of_read (o := .message) due page
      (allowed _ (by simp)) store nofun more read (List.cons_ne_nil _ _)).trans ?_)
    rw [← funext substituted_eq]
    exact State.settleOrder_done due fun g => { g with message := bytes.map substituted }

end Sys2Proof.Machine

namespace Sys2Proof.Machine

section text

variable {s : State} {t : Transaction} {k : Kind} {p : PageNum} {codes : List Byte}

/-- R131: a run of at most 1920 writes, and the places that it leaves, told by their distance behind its start. -/
theorem Cells.read_writeRun_wrapped {m : Cells} {a : Nat} (wf : m.wf) (ha : a < 1920) (most : codes.length ≤ 1920)
    (b : Nat) : (m.writeRun a codes).read b =
      if b < 1920 ∧ (b + 1920 - a) % 1920 < codes.length then codes.getD ((b + 1920 - a) % 1920) 0x00#8
      else m.read b := by
  split
  · rename_i inside
    obtain ⟨cell, written⟩ := inside
    have place : (a + (b + 1920 - a) % 1920) % 1920 = b := by omega
    have read := Cells.read_writeRun a codes wf ha most _ written
    rwa [place, ← List.getD_eq_getElem _ 0x00#8 written] at read
  · rename_i outside
    exact Cells.read_writeRun_outside a codes wf ha b fun i hi => by omega

/-- R134: a cell of a run lies in an ENTRY field. -/
theorem Page.touchesEntry_iff {g : Page} {a n : Nat} :
    g.touchesEntry a n = true ↔ ∃ i < n, g.entryAt ((a + i) % 1920) ≠ none := by
  simp only [Page.touchesEntry, List.any_eq_true, List.mem_range, Option.isSome_iff_ne_none]

/-- R131: a run that is written advances the write position. -/
theorem State.writeText_of_open {a : Nat} (open_ : k = .post → (s.page p).touchesEntry a codes.length = false) :
    s.writeText k p a codes =
      .done ((s.setPage p { s.page p with cells := (s.page p).cells.writeRun a codes }).setWritePos
        ((a + codes.length) % 1920)) :=
  if_neg fun ⟨post, touches⟩ => by simp [open_ post] at touches

/-- R134: a run that is skipped in a POST advances the write position too. -/
theorem State.writeText_of_touches {a : Nat} (touches : (s.page p).touchesEntry a codes.length = true) :
    s.writeText .post p a codes = .skipped (s.setWritePos ((a + codes.length) % 1920)) :=
  if_pos ⟨rfl, touches⟩

/-- R132, R133: TEXT, REPEAT and CLEAR, their counts in range, come to a run of at most 1920 codes. -/
theorem exec_of_codesWritten {c : Instr} (due : s.orderDue t k) (page : t.page = some p)
    (kind : k = .load ∨ k = .amend ∨ k = .reopen ∨ k = .post) (written : codesWritten c = some codes) :
    codes.length ≤ 1920 ∧ ∃ o operands, exec c s = .next (State.settleOrder (t.reading o operands)
      ((s.withTxn (t.reading o operands)).writeText k p t.writePos codes)) := by
  obtain ⟨store, allowed, -⟩ := OrderCode.allowedIn_of_writing kind
  have counted {n : Nat} (h : 1 ≤ n ∧ n ≤ 1920) : countHolds n = true := by simpa [countHolds] using h
  cases c with
  | text n bytes =>
    obtain ⟨⟨some_, length⟩, e⟩ := Option.ite_none_right_eq_some.1 written
    obtain rfl := Option.some.inj e
    obtain ⟨more, read⟩ := operandsRead_counted (operandsRead_text some_) length
    refine ⟨by simp only [List.length_map]; omega, .text, n :: bytes, ?_⟩
    exact congrArg Host.Outcome.next (State.takeStream_pageOrder_of_read (o := .text) due page (allowed _ (by simp)) store
      nofun more read (List.cons_ne_nil _ _))
  | repeatChar character count =>
    obtain ⟨range, e⟩ := Option.ite_none_right_eq_some.1 written
    obtain rfl := Option.some.inj e
    refine ⟨by simpa using range.2, .repeatChar, [character, count.extractLsb' 8 8, count.extractLsb' 0 8], ?_⟩
    refine congrArg Host.Outcome.next ((State.takeStream_pageOrder (o := .repeatChar) (n := 3) due page
      (allowed _ (by simp)) store nofun (fun _ => rfl) rfl (List.cons_ne_nil _ _)).trans ?_)
    simp only [State.pageOrder, List.getD_cons_zero, List.getD_cons_succ, countOf_extractLsb', counted range, if_true]
  | clear count =>
    obtain ⟨range, e⟩ := Option.ite_none_right_eq_some.1 written
    obtain rfl := Option.some.inj e
    refine ⟨by simpa using range.2, .clear, [count.extractLsb' 8 8, count.extractLsb' 0 8], ?_⟩
    refine congrArg Host.Outcome.next ((State.takeStream_pageOrder (o := .clear) (n := 2) due page
      (allowed _ (by simp)) store nofun (fun _ => rfl) rfl (List.cons_ne_nil _ _)).trans ?_)
    simp only [State.pageOrder, List.getD_cons_zero, List.getD_cons_succ, countOf_extractLsb', counted range, if_true]
  | _ => cases written

end text

/-- Settles O25: the run is written, or in a POST skipped where a cell of it lies in an ENTRY field. -/
theorem textOrdersWriteCells : Obligations.TextOrdersWriteCells := by
  intro s t k p c codes due page kind place wf written
  obtain ⟨most, o, operands, taken⟩ := exec_of_codesWritten due page kind written
  rw [taken]
  refine ⟨fun open_ => ⟨(s.page p).cells.writeRun t.writePos codes, Cells.wf_writeRun _ _ wf, ?_,
    Cells.read_writeRun_wrapped wf place most⟩, fun post touches => ?_⟩
  · have open' : k = .post → (s.page p).touchesEntry t.writePos codes.length = false := fun post =>
      Bool.eq_false_iff.2 fun touches =>
        have ⟨i, below, there⟩ := Page.touchesEntry_iff.1 touches
        there (open_.resolve_left (not_not_intro post) i below)
    rw [State.writeText_of_open (s := s.withTxn (t.reading o operands)) open']
    exact congrArg Host.Outcome.next (State.settleOrder_placed due (s.setPage p _) _)
  · obtain rfl := post
    rw [State.writeText_of_touches (s := s.withTxn (t.reading o operands)) (Page.touchesEntry_iff.2 touches)]
    exact congrArg Host.Outcome.next (State.settleOrder_skippedPast due _)

end Sys2Proof.Machine

/-! # ERASE

An ERASE in IDLE or GATHERING takes its slots one after another (R168). Which of them join the batch is told by the list
alone: each once, in list order, up to the batch's 8. -/

namespace Sys2Proof.Machine

/-! ## The header -/

section header

variable {s : State} {page tag count : Byte} {slots : List Byte}

/-- R122: an ERASE header waits for as many slots as its count names, if the count is 1–8. -/
theorem headerComplete_erase : headerComplete (Kind.erase.code :: page :: tag :: count :: slots) = true ↔
    count.toNat = 0 ∨ 8 < count.toNat ∨ count.toNat ≤ slots.length := by
  simp [headerComplete, kindOfByte_code, or_assoc]

/-- R122: an ERASE header is judged with its last byte. -/
theorem State.takeStream_erase (due : s.headerDue)
    (length : slots.length = if 1 ≤ count.toNat ∧ count.toNat ≤ 8 then count.toNat else 0) :
    s.takeStream (Kind.erase.code :: page :: tag :: count :: slots) =
      (s.withTxn (.ofHeader (Kind.erase.code :: page :: tag :: count :: slots).dropLast)).judgeHeader
        (.ofHeader (Kind.erase.code :: page :: tag :: count :: slots)) := by
  refine State.takeStream_header s _ due (fun n _ below => ?_) (headerComplete_erase.2 (by split at length <;> omega))
  match n with
  | 0 | 1 | 2 => exact headerComplete_short (by simp)
  | 3 => simp [headerComplete, kindOfByte_code]
  | n + 4 =>
    simp only [List.length_cons] at below
    rw [← Bool.not_eq_true]
    simp only [List.take_succ_cons, headerComplete_erase, List.length_take]
    split at length <;> omega

/-- R123 step 4, R168: an ERASE header whose count is out of range. -/
theorem State.judgeHeader_erase_badCount (wrong : count.toNat = 0 ∨ 8 < count.toNat) :
    s.judgeHeader (.ofHeader (Kind.erase.code :: page :: tag :: count :: slots)) =
      s.refuse (.ofHeader (Kind.erase.code :: page :: tag :: count :: slots)) .badOrder 0 := by
  simp only [State.judgeHeader, Transaction.kind_ofHeader]
  exact if_pos wrong

/-- R168: an ERASE header with a count of 1–8 that is refused. -/
theorem State.judgeHeader_erase_refused {status : Status} {detail : Nat} (least : 1 ≤ count.toNat)
    (most : count.toNat ≤ 8) (refused : s.eraseRefusal slots = some (status, detail)) :
    s.judgeHeader (.ofHeader (Kind.erase.code :: page :: tag :: count :: slots)) =
      s.refuse (.ofHeader (Kind.erase.code :: page :: tag :: count :: slots)) status detail := by
  have counted : ¬(count.toNat = 0 ∨ 8 < count.toNat) := by omega
  have refused' : s.eraseRefusal
      ((Transaction.ofHeader (Kind.erase.code :: page :: tag :: count :: slots)).operands.drop 1) =
        some (status, detail) := refused
  simp only [State.judgeHeader, Transaction.kind_ofHeader, refused']
  exact if_neg counted

/-- R168: an ERASE header that is accepted. -/
theorem State.judgeHeader_erase_accepted (least : 1 ≤ count.toNat) (most : count.toNat ≤ 8)
    (accepted : s.eraseRefusal slots = none) :
    s.judgeHeader (.ofHeader (Kind.erase.code :: page :: tag :: count :: slots)) =
      (s.acceptErase slots).1.accept (match (s.acceptErase slots).2 with
        | none => .ofHeader (Kind.erase.code :: page :: tag :: count :: slots)
        | some slot => (Transaction.ofHeader (Kind.erase.code :: page :: tag :: count :: slots)).skip slot) := by
  have counted : ¬(count.toNat = 0 ∨ 8 < count.toNat) := by omega
  have operands : (Transaction.ofHeader (Kind.erase.code :: page :: tag :: count :: slots)).operands.drop 1 = slots := rfl
  simp only [State.judgeHeader, Transaction.kind_ofHeader, operands, accepted]
  refine (if_neg counted).trans ?_
  cases (s.acceptErase slots).2 <;> rfl

/-- R168: an ERASE is refused BUSY while a run is under way. -/
theorem State.eraseRefusal_busy (busy : s.store.unit.state = .erasing ∨ s.store.unit.state = .pausing ∨
    s.store.unit.state = .paused) : s.eraseRefusal slots = some (.busy, 0) := by
  rcases busy with e | e | e <;> simp only [State.eraseRefusal, e]

/-- R168: in IDLE and GATHERING the first byte that names no slot decides. -/
theorem State.eraseRefusal_open (open_ : s.store.unit.state = .idle ∨ s.store.unit.state = .gathering) :
    s.eraseRefusal slots = (slots.find? fun b => (slotOfByte b).isNone).map fun b => (.badSlot, b.toNat) := by
  rcases open_ with e | e <;> simp only [State.eraseRefusal, e]

theorem slotOfByte_isNone {b : Byte} : (slotOfByte b).isNone = true ↔ 23 < b.toNat := by
  unfold slotOfByte
  split <;> simp <;> omega

theorem slotOfByte_byteOf : ∀ n : SlotNum, slotOfByte (byteOf n.val) = some n := by decide

end header

/-! ## The slots that join -/

section joining

variable {s u : State} {n : SlotNum} {ns joined : List SlotNum} {prior : KeptState}

/-- R168: the listed slots that join the batch. -/
def State.joining (s : State) (ns : List SlotNum) : List SlotNum :=
  ((ns.filter fun n => n ∉ s.store.unit.batch ∧ (s.slot n).state.kept ≠ none).eraseDups).take
    (8 - s.store.unit.batch.length)

/-- R168: a slot joins the batch and becomes QUEUED. -/
def State.enrol (s : State) (n : SlotNum) (prior : KeptState) : State :=
  { s with store.unit.batch := s.store.unit.batch ++ [n] }.updSlot n (·.become (.queued prior))

theorem State.eraseSlot_of_mem (there : n ∈ s.store.unit.batch) : s.eraseSlot n = (s, false) :=
  if_pos (List.contains_iff_mem.2 there)

theorem State.eraseSlot_of_unkept (absent : n ∉ s.store.unit.batch) (unkept : (s.slot n).state.kept = none) :
    s.eraseSlot n = (s, true) := by
  rw [State.eraseSlot, if_neg (mt List.contains_iff_mem.1 absent), unkept]

theorem State.eraseSlot_of_full (absent : n ∉ s.store.unit.batch) (full : 8 ≤ s.store.unit.batch.length) :
    s.eraseSlot n = (s, true) := by
  rw [State.eraseSlot, if_neg (mt List.contains_iff_mem.1 absent)]
  cases (s.slot n).state.kept with
  | none => rfl
  | some prior => exact if_pos full

theorem State.eraseSlot_of_room (absent : n ∉ s.store.unit.batch) (kept : (s.slot n).state.kept = some prior)
    (room : s.store.unit.batch.length < 8) : s.eraseSlot n = (s.enrol n prior, false) := by
  rw [State.eraseSlot, if_neg (mt List.contains_iff_mem.1 absent), kept]
  exact if_neg (Nat.not_le.2 room)

theorem State.mem_joining (h : n ∈ s.joining ns) : (s.slot n).state.kept ≠ none := by
  have := List.mem_filter.1 (List.mem_eraseDups.1 (List.mem_of_mem_take h))
  simp_all

theorem State.joining_nil (s : State) : s.joining [] = [] := List.take_nil

theorem State.joining_of_full (full : 8 ≤ s.store.unit.batch.length) : s.joining ns = [] := by
  rw [State.joining, Nat.sub_eq_zero_of_le full, List.take_zero]

/-- R168: a slot of the batch and one that is not kept leave the others to join. -/
theorem State.joining_cons_of_not (h : ¬(n ∉ s.store.unit.batch ∧ (s.slot n).state.kept ≠ none)) :
    s.joining (n :: ns) = s.joining ns := by
  rw [State.joining, List.filter_cons_of_neg (by simpa using h)]
  rfl

theorem State.slot_enrol (s : State) (n m : SlotNum) (prior : KeptState) :
    (s.enrol n prior).slot m = if m = n then (s.slot n).become (.queued prior) else s.slot m :=
  State.slot_updSlot _ n m _

/-- R168: once a slot has joined, the others join behind it. -/
theorem State.joining_cons_of_room (absent : n ∉ s.store.unit.batch) (kept : (s.slot n).state.kept = some prior)
    (room : s.store.unit.batch.length < 8) : s.joining (n :: ns) = n :: (s.enrol n prior).joining ns := by
  have others : (ns.filter fun m =>
        m ∉ (s.enrol n prior).store.unit.batch ∧ ((s.enrol n prior).slot m).state.kept ≠ none) =
      (ns.filter fun m => m ∉ s.store.unit.batch ∧ (s.slot m).state.kept ≠ none).filter fun m => !m == n := by
    rw [List.filter_filter]
    refine List.filter_congr fun m _ => ?_
    have batch : (s.enrol n prior).store.unit.batch = s.store.unit.batch ++ [n] := rfl
    by_cases same : m = n
    · simp [batch, same]
    · simp [batch, same, State.slot_enrol]
  have places : 8 - s.store.unit.batch.length = 8 - (s.enrol n prior).store.unit.batch.length + 1 := by
    simp [State.enrol]
    omega
  rw [State.joining, List.filter_cons_of_pos (by simp [absent, kept]), List.eraseDups_cons, places, List.take_succ_cons,
    ← others]
  rfl

/-- R168: a slot that has joined the batch; its state is kept with it. -/
def Slot.enqueued (slot : Slot) : Slot := { slot with state := match slot.state with
  | .blank => .queued .blank
  | .filled => .queued .filled
  | .failed => .queued .failed
  | other => other }

theorem Slot.enqueued_of_kept {slot : Slot} (kept : slot.state.kept = some prior) :
    slot.enqueued = slot.become (.queued prior) := by
  cases state : slot.state <;> rw [state] at kept <;> cases kept <;> simp only [Slot.enqueued, Slot.become, state]

/-- R168: u is s after these slots have joined the batch. -/
structure State.Enrolled (s u : State) (joined : List SlotNum) : Prop where
  frame : u = { s with store := {
    slots := u.store.slots
    unit := { s.store.unit with batch := s.store.unit.batch ++ joined } } }
  slot : ∀ n : SlotNum, u.slot n = if n ∈ joined then (s.slot n).enqueued else s.slot n

theorem State.Enrolled.nil (s : State) : s.Enrolled s [] := ⟨by rw [List.append_nil], fun _ => rfl⟩

theorem State.Enrolled.cons (kept : (s.slot n).state.kept = some prior) (h : (s.enrol n prior).Enrolled u joined) :
    s.Enrolled u (n :: joined) where
  frame := by
    have frame := h.frame
    generalize u.store.slots = slots at frame ⊢
    rw [frame]
    simp [State.enrol, State.updSlot]
  slot m := by
    rw [h.slot, State.slot_enrol]
    by_cases same : m = n
    · subst same
      simp only [if_true, List.mem_cons, true_or, Slot.enqueued_of_kept kept]
      split <;> rfl
    · simp only [same, if_false, List.mem_cons, false_or]

/-- R168: what the listed slots come to, taken one after another. -/
theorem State.eraseSlots_enrolled (s : State) (ns : List SlotNum) : s.Enrolled (State.eraseSlots s ns).1 (s.joining ns) ∧
    (State.eraseSlots s ns).2 =
      (ns.find? fun n => n ∉ s.store.unit.batch ++ s.joining ns).map fun n => n.val := by
  induction ns generalizing s with
  | nil => exact ⟨(State.joining_nil s).symm ▸ .nil s, rfl⟩
  | cons n ns ih =>
    have skipped (one : s.eraseSlot n = (s, true)) (same : s.joining (n :: ns) = s.joining ns)
        (out : n ∉ s.store.unit.batch ++ s.joining ns) :
        s.Enrolled (State.eraseSlots s (n :: ns)).1 (s.joining (n :: ns)) ∧
        (State.eraseSlots s (n :: ns)).2 =
          ((n :: ns).find? fun m => m ∉ s.store.unit.batch ++ s.joining (n :: ns)).map fun m => m.val := by
      rw [same, List.find?_cons_of_pos (by exact decide_eq_true out)]
      simp only [State.eraseSlots, one]
      exact ⟨(ih s).1, rfl⟩
    by_cases there : n ∈ s.store.unit.batch
    · have same := State.joining_cons_of_not (ns := ns) fun h => h.1 there
      rw [same, List.find?_cons_of_neg (by simp [there])]
      simp only [State.eraseSlots, State.eraseSlot_of_mem there]
      exact ih s
    · cases kept : (s.slot n).state.kept with
      | none =>
        have same := State.joining_cons_of_not (ns := ns) fun h => h.2 kept
        exact skipped (State.eraseSlot_of_unkept there kept) same fun h =>
          (List.mem_append.1 h).elim there fun h => State.mem_joining h kept
      | some prior =>
        by_cases room : s.store.unit.batch.length < 8
        · obtain ⟨enrolled, first⟩ := ih (s.enrol n prior)
          have batch : (s.enrol n prior).store.unit.batch ++ (s.enrol n prior).joining ns =
              s.store.unit.batch ++ n :: (s.enrol n prior).joining ns := (List.append_cons _ _ _).symm
          rw [batch] at first
          rw [State.joining_cons_of_room there kept room, List.find?_cons_of_neg (by simp)]
          simp only [State.eraseSlots, State.eraseSlot_of_room there kept room]
          exact ⟨enrolled.cons kept, first⟩
        · have full : 8 ≤ s.store.unit.batch.length := Nat.not_lt.1 room
          exact skipped (State.eraseSlot_of_full there full)
            ((State.joining_of_full full).trans (State.joining_of_full full).symm)
            (by rwa [State.joining_of_full full, List.append_nil])

/-- R168: the window restarts, and in IDLE a run begins. -/
theorem State.gather_eq (open_ : s.store.unit.state = .idle ∨ s.store.unit.state = .gathering) :
    s.gather = { s with store.unit := { s.store.unit with
      state := .gathering
      window := some 20
      result := if s.store.unit.state = .idle then [] else s.store.unit.result } } := by
  rcases open_ with e | e
  · simp only [State.gather, e, if_true]
  · simp only [State.gather, e, reduceCtorEq, if_false]

theorem SlotState.kept_ne_none {state : SlotState} :
    state.kept ≠ none ↔ state = .blank ∨ state = .filled ∨ state = .failed := by
  cases state <;> simp [SlotState.kept]

/-- R168: only BLANK, FILLED and FAILED slots join. -/
theorem State.joining_eq (s : State) (ns : List SlotNum) : s.joining ns =
    ((ns.filter fun n => n ∉ s.store.unit.batch ∧
      ((s.slot n).state = .blank ∨ (s.slot n).state = .filled ∨ (s.slot n).state = .failed)).eraseDups).take
        (8 - s.store.unit.batch.length) := by
  rw [State.joining]
  simp only [SlotState.kept_ne_none]

/-- R168: an accepted ERASE takes its slots and acts on the unit. -/
theorem State.acceptErase_enrolled (s : State) (ns : List SlotNum) : ∃ u, s.Enrolled u (s.joining ns) ∧
    s.acceptErase (ns.map fun n => byteOf n.val) =
      (u.gather, (ns.find? fun n => n ∉ s.store.unit.batch ++ s.joining ns).map fun n => n.val) := by
  obtain ⟨enrolled, first⟩ := s.eraseSlots_enrolled ns
  refine ⟨_, enrolled, ?_⟩
  have listed : (ns.map fun n => byteOf n.val).filterMap slotOfByte = ns := by
    simp only [List.filterMap_map, Function.comp_def, slotOfByte_byteOf, List.filterMap_some]
  rw [State.acceptErase, listed, ← first]

/-- R168: the unit after an ERASE, and the slots. -/
theorem State.Enrolled.gather_eq (h : s.Enrolled u joined)
    (open_ : s.store.unit.state = .idle ∨ s.store.unit.state = .gathering) :
    u.gather = { s with store := {
      slots := u.store.slots
      unit := { s.store.unit with
        state := .gathering
        batch := s.store.unit.batch ++ joined
        window := some 20
        result := if s.store.unit.state = .idle then [] else s.store.unit.result } } } := by
  have frame := h.frame
  generalize u.store.slots = slots at frame ⊢
  subst frame
  exact State.gather_eq open_

/-- R168: the record of an accepted ERASE: its first skipped slot, if there is one. -/
def eraseRecord (page tag count : Byte) (ns joined : List SlotNum) : Transaction :=
  let record := Transaction.ofHeader (0x45#8 :: page :: tag :: count :: ns.map fun n => byteOf n.val)
  match ns.find? fun n => n ∉ joined with
  | none => record
  | some n => { record with status := .someSkipped, firstSkipped := some n.val }

/-- R168: what an ERASE header makes of the unit, the slots and the interpreter when it is accepted. -/
theorem State.judgeHeader_erase_joins {page tag count : Byte} (least : 1 ≤ count.toNat) (most : count.toNat ≤ 8)
    (open_ : s.store.unit.state = .idle ∨ s.store.unit.state = .gathering) : ∃ slots : Vector Slot 24,
    s.judgeHeader (.ofHeader (Kind.erase.code :: page :: tag :: count :: ns.map fun n => byteOf n.val)) = { s with
      store := {
        slots := slots
        unit := { s.store.unit with
          state := .gathering
          batch := s.store.unit.batch ++ s.joining ns
          window := some 20
          result := if s.store.unit.state = .idle then [] else s.store.unit.result } }
      interp := { s.interp with
        state := .orders
        txn := some (eraseRecord page tag count ns (s.store.unit.batch ++ s.joining ns)) } } ∧
    ∀ n : SlotNum, slots[n.val] = if n ∈ s.joining ns then (s.slot n).enqueued else s.slot n := by
  obtain ⟨u, enrolled, taken⟩ := s.acceptErase_enrolled ns
  have accepted : s.eraseRefusal (ns.map fun n => byteOf n.val) = none := by
    rw [State.eraseRefusal_open open_, List.find?_eq_none.2 fun b hb => ?_]
    · rfl
    · obtain ⟨n, -, rfl⟩ := List.mem_map.1 hb
      simp [slotOfByte_byteOf]
  refine ⟨u.store.slots, ?_, enrolled.slot⟩
  rw [State.judgeHeader_erase_accepted least most accepted, taken, enrolled.gather_eq open_, eraseRecord]
  cases ns.find? fun n => n ∉ s.store.unit.batch ++ s.joining ns <;> rfl

end joining

/-- Settles O22: the refusals, and the acceptance slot by slot. -/
theorem eraseHeaderChecksAndBegins : Obligations.EraseHeaderChecksAndBegins := by
  intro s page tag count due
  refine ⟨fun wrong => ⟨_, rfl, ?_⟩, fun slots length least most => ⟨fun busy => ⟨_, rfl, ?_⟩,
    fun open_ before after b split named above => ⟨_, rfl, ?_⟩⟩, fun ns open_ length least most => ?_⟩
  · rw [State.takeStream_erase due (by rw [if_neg (by omega), List.length_nil]), State.judgeHeader_erase_badCount wrong]
    exact State.refusedTo_refuse s _ _ .badOrder 0
  · rw [State.takeStream_erase due (by rw [if_pos ⟨least, most⟩, length]),
      State.judgeHeader_erase_refused least most (State.eraseRefusal_busy (s := s.withTxn _) busy)]
    exact State.refusedTo_refuse s _ _ .busy 0
  · have first : slots.find? (fun b => (slotOfByte b).isNone) = some b := by
      rw [split, List.find?_append, List.find?_eq_none.2 fun x hx => ?_, Option.none_or]
      · exact List.find?_cons_of_pos (slotOfByte_isNone.2 above)
      · rw [slotOfByte_isNone]
        exact Nat.not_lt.2 (named x hx)
    have refused (u : State) (same : u.store = s.store) : u.eraseRefusal slots = some (.badSlot, b.toNat) := by
      rw [State.eraseRefusal_open (by rwa [same]), first]
      rfl
    rw [State.takeStream_erase due (by rw [if_pos ⟨least, most⟩, length]),
      State.judgeHeader_erase_refused least most (refused (s.withTxn _) rfl)]
    exact State.refusedTo_refuse s _ _ .badSlot b.toNat
  · obtain ⟨slots, judged, each⟩ := State.judgeHeader_erase_joins (page := page) (tag := tag) (ns := ns)
      (s := s.withTxn (.ofHeader (Kind.erase.code :: page :: tag :: count :: ns.map fun n => byteOf n.val).dropLast))
      least most open_
    have taken := State.takeStream_erase (page := page) (tag := tag) (slots := ns.map fun n => byteOf n.val) due
      (by rw [if_pos ⟨least, most⟩, List.length_map, length])
    refine ⟨_, congrArg Host.Outcome.next (taken.trans judged), ?_⟩
    rw [← State.joining_eq s ns]
    exact ⟨rfl, each⟩

end Sys2Proof.Machine

/-! # Aborts

An abort undoes what its kind undoes, answers, and closes the transaction (R127). With no input held nothing else
happens. -/

namespace Sys2Proof.Machine

section aborts

variable {s u : State} {t r q : Transaction} {k : Kind} {status : Status}

theorem State.withTxn_self (ht : s.interp.txn = some t) : s.withTxn t = s := by
  rw [State.withTxn, ← ht]

/-- R126, R127: the answer and the close of a transaction, with no input held. -/
theorem State.closedTo_clearMark (next : InterpState) (report : Report) (held : s.nothingHeld) :
    (s.clearMark t).closedTo ((s.answer report).closeTransaction t next) next none report := by
  cases page : t.page with
  | some p =>
    have closed := State.closedTo_page_of_nothingHeld next report page held
    simpa only [State.clearMark, page, State.updPage] using closed
  | none =>
    rw [State.closeTransaction_of_nothingHeld _ (State.nothingHeld_answer report held)]
    simp only [State.closed, State.clearMark, page]
    unfold State.closedTo State.answered
    rw [State.answer_eq]
    split <;> simp

/-- R127: the effects of an abort and the cleared mark. -/
theorem State.clearMark_abortEffects (kind : t.kind = some k) : (s.abortEffects t).clearMark t = s.afterAbort t k := by
  unfold State.abortEffects State.clearMark State.afterAbort
  rw [kind]
  cases page : t.page with
  | some p =>
    cases k with
    | load => simp [State.updPage, Page.released, Page.blank]
    | store => cases (Transaction.page_of_kind kind rfl).symm.trans page
    | _ => rfl
  | none =>
    cases k with
    | store => rfl
    | _ => rfl

/-- R95: the effects of an abort leave no input to release. -/
theorem State.nothingHeld_abortEffects (ht : s.interp.txn = some q) (same : q.kind = t.kind) (kind : t.kind = some k)
    (held : s.nothingHeld) : (s.abortEffects t).nothingHeld := by
  have ht' : (s.abortEffects t).interp.txn = some q := by rw [State.abortEffects_interp, ht]
  by_cases other : k ≠ .amend ∧ k ≠ .reopen
  · exact State.nothingHeld_of_kind ht' (same.trans kind) other
  · have stays : s.abortEffects t = s := by
      obtain rfl | rfl : k = .amend ∨ k = .reopen := by tauto
      all_goals simp only [State.abortEffects, kind]
    rwa [stays]

/-- R127: an abort with no input held. -/
theorem State.closedTo_abort (next : InterpState) (detail : Nat) (ht : s.interp.txn = some q) (same : q.kind = t.kind)
    (kind : t.kind = some k) (held : s.nothingHeld) :
    (s.afterAbort t k).closedTo (s.abort t status detail next) next none (.completion t.tag status detail) := by
  rw [← State.clearMark_abortEffects kind]
  exact State.closedTo_clearMark next _ (State.nothingHeld_abortEffects ht same kind held)

/-- R95: what is held is told by the kind of the record alone. -/
theorem State.nothingHeld_withTxn (ht : s.interp.txn = some t) (same : r.kind = t.kind) (held : s.nothingHeld) :
    (s.withTxn r).nothingHeld := by
  have inhibited : (s.withTxn r).inhibited = s.inhibited := by
    simp only [State.inhibited, State.withTxn, ht, Option.bind_some, same, State.page]
  intro h
  exact held (inhibited ▸ h)

/-- R127: what an abort leaves is told by the header of the record alone. -/
theorem State.afterAbort_withTxn (same : r.header = t.header) :
    (s.withTxn q).afterAbort r k = (s.afterAbort t k).withTxn q := by
  unfold State.afterAbort Transaction.operands
  rw [Transaction.page_congr same, same]
  cases t.page with
  | some p => rfl
  | none =>
    simp only
    split
    · split <;> rfl
    · rfl

/-- R127: an abort while an order of the transaction is being read. -/
theorem State.closedTo_abort_withTxn (next : InterpState) (due : s.orderDue t k) (held : s.nothingHeld)
    (same : r.header = t.header) (same' : q.header = t.header) :
    (s.afterAbort t k).closedTo ((s.withTxn q).abort r status t.next next) next none
      (.completion t.tag status t.next) := by
  obtain ⟨-, ht, kind, -, -⟩ := due
  have kind' : q.kind = r.kind := Transaction.kind_congr (same'.trans same.symm)
  have closed := State.closedTo_abort (s := s.withTxn q) (t := r) (status := status) next t.next rfl kind'
    ((Transaction.kind_congr same).trans kind)
    (State.nothingHeld_withTxn ht (Transaction.kind_congr same') held)
  rw [State.afterAbort_withTxn same, Transaction.tag, same] at closed
  exact closed

/-- R127: START opens the next transaction behind an abort. -/
theorem State.closedTo_openTransaction {base : State} {report : Report} (h : base.closedTo u .header none report) :
    base.closedTo u.openTransaction .header (some (.ofHeader [])) report := by
  obtain ⟨left, answered⟩ := h
  refine ⟨?_, answered⟩
  simp only [State.openTransaction_reports, State.openTransaction_interp_stalled]
  generalize u.reports = reports, u.interp.stalled = stalled at left
  subst left
  rfl

/-- R124: START in the order-code position. -/
theorem exec_aborted (due : s.orderDue t k) : exec .aborted s =
    .next ((s.abort t .aborted t.next .header).openTransaction) := by
  obtain ⟨state, ht, -, order, free⟩ := due
  refine congrArg Host.Outcome.next ((State.takeStream_byte free 0x02#8).trans ?_)
  simp [State.interpretByte, state, ht, order, State.takeOrderCode, nextIndex_eq]

/-- R127: the command aborts the transaction with a status, and the rest of it is skipped. -/
def State.Aborts (s : State) (t : Transaction) (k : Kind) (c : Instr) (status : Status) : Prop :=
  ∃ u, exec c s = .next u ∧ (s.afterAbort t k).closedTo u .skipping none (.completion t.tag status t.next)

/-- R124: a byte in the order-code position that is no order the kind allows. -/
theorem State.takeOrderCode_refused {b : Byte} (kind : t.kind = some k) (start : b ≠ 0x02#8) (finish : b ≠ 0x03#8)
    (refused : ∀ o : OrderCode, o.allowedIn k = true → b ≠ o.code) :
    s.takeOrderCode t b = s.abort { t with index := nextIndex t.index } .badOrder (nextIndex t.index) .skipping := by
  have kind' (n : Nat) : ({ t with index := n } : Transaction).kind = some k := kind
  simp only [State.takeOrderCode, start, finish, if_false, kind']
  cases named : orderOfByte b with
  | none => rfl
  | some o => exact if_neg fun allowed => refused o allowed (orderOfByte_ne named).1

theorem State.aborts_badOrderCode {b : Byte} (due : s.orderDue t k) (held : s.nothingHeld) (start : b ≠ 0x02#8)
    (finish : b ≠ 0x03#8) (refused : ∀ o : OrderCode, o.allowedIn k = true → b ≠ o.code) :
    s.Aborts t k (.badOrderCode b) .badOrder := by
  obtain ⟨state, ht, kind, order, free⟩ := id due
  have taken : s.takeStream [b] = s.takeOrderCode t b := by
    rw [State.takeStream_byte free]
    simp only [State.interpretByte, state, ht, order, if_true]
  have closed := State.closedTo_abort_withTxn (status := .badOrder) (r := { t with index := nextIndex t.index }) (q := t)
    .skipping due held rfl rfl
  rw [State.withTxn_self ht, ← nextIndex_eq, ← State.takeOrderCode_refused kind start finish refused, ← taken,
    nextIndex_eq] at closed
  exact ⟨_, rfl, closed⟩

/-- R124: an order whose count is refused as soon as it is read. -/
theorem State.aborts_refusedCount {c : Instr} {o : OrderCode} {operands : List Byte} (due : s.orderDue t k)
    (held : s.nothingHeld) (sent : exec c s = .next (s.takeStream (o.code :: operands))) (allowed : o.allowedIn k = true)
    (more : ∀ n, 1 ≤ n → n < operands.length → operandsRead o (operands.take n) = .more)
    (read : operandsRead o operands = .refused status) (some_ : operands ≠ []) : s.Aborts t k c status := by
  refine ⟨_, sent, ?_⟩
  rw [State.takeStream_refusedCount s t k o operands status due allowed more read some_, nextIndex_eq]
  exact State.closedTo_abort_withTxn .skipping due held rfl rfl

/-- R124, R127: an order that fails once its last operand has been read. -/
theorem State.aborts_failed {c : Instr} {o : OrderCode} {operands : List Byte} (due : s.orderDue t k)
    (held : s.nothingHeld) (sent : exec c s = .next (s.takeStream (o.code :: operands))) (allowed : o.allowedIn k = true)
    (read : (∀ n, 1 ≤ n → n < operands.length → operandsRead o (operands.take n) = .more) ∧
      operandsRead o operands = .complete) (some_ : operands ≠ [])
    (fails : ∀ v : State, v.pages = s.pages → v.store = s.store →
      v.carryOut (t.reading o operands) o operands = .failed status v) : s.Aborts t k c status := by
  refine ⟨_, sent, ?_⟩
  rw [State.takeStream_order s t k o operands due allowed read.1 read.2 some_,
    fails (s.withTxn (t.reading o operands)) rfl rfl]
  have detail : (t.reading o operands).index = t.next := nextIndex_eq t
  simp only [State.settleOrder, detail]
  exact State.closedTo_abort_withTxn .skipping due held rfl rfl

end aborts

end Sys2Proof.Machine

/-! # The checks of DEFINE

R31 makes six checks of a DEFINE: two of its operands alone, four against the page. Here each check is told by what fails
it. -/

namespace Sys2Proof.Machine

section codes

variable {b : Byte}

theorem classOfByte_eq_none : classOfByte b = none ↔ 3 < b.toNat := by
  unfold classOfByte
  split <;> simp_all
  omega

theorem sourceOfByte_eq_none : sourceOfByte b = none ↔ 2 < b.toNat := by
  unfold sourceOfByte
  split <;> simp_all
  omega

theorem checkOfByte_eq_none : checkOfByte b = none ↔ 2 < b.toNat := by
  unfold checkOfByte
  split <;> simp_all
  omega

theorem actionOfByte_eq_none : actionOfByte b = none ↔ 2 < b.toNat := by
  unfold actionOfByte
  split <;> simp_all
  omega

theorem intensityOfByte_eq_none : intensityOfByte b = none ↔ b.toNat % 4 = 3 := by
  unfold intensityOfByte
  split <;> simp_all
  omega

theorem chainOfByte_eq_none : chainOfByte b = none ↔ 3 < b.toNat := by
  unfold chainOfByte
  split <;> simp <;> omega

/-- The code of a class (11.2). -/
def FieldClass.codeByte : FieldClass → Byte
  | .alpha => 0x00#8
  | .code => 0x01#8
  | .digits => 0x02#8
  | .amount => 0x03#8

/-- The code of a check kind (11.2). -/
def CheckKind.codeByte : CheckKind → Byte
  | .noCheck => 0x00#8
  | .m10 => 0x01#8
  | .m11 => 0x02#8

theorem classOfByte_eq_some {c : FieldClass} (h : classOfByte b = some c) : b = c.codeByte := by
  unfold classOfByte at h
  split at h <;> cases h <;> exact BitVec.eq_of_toNat_eq ‹_›

theorem checkOfByte_eq_some {c : CheckKind} (h : checkOfByte b = some c) : b = c.codeByte := by
  unfold checkOfByte at h
  split at h <;> cases h <;> exact BitVec.eq_of_toNat_eq ‹_›

end codes

section define

variable {s : State} {p : PageNum} {d : DefineOperands} {g : Page} {f : Field} {start : Nat}

/-- R29, R31 check 2: the operands of an ENTRY field that no class admits. -/
def CombinationFails (d : DefineOperands) : Prop :=
  d.cls = 0x00#8 ∧ d.check ≠ 0x00#8 ∨ d.cls = 0x01#8 ∧ d.check = 0x01#8 ∨
    d.cls ≠ 0x00#8 ∧ d.continuation ≠ 0xFF#8 ∨
    d.cls = 0x03#8 ∧ (d.check ≠ 0x00#8 ∨ d.length.toNat < 2 ∨ 20 < d.length.toNat ∨ 4 < d.scale.toNat ∨
      d.length.toNat ≤ d.scale.toNat ∨ 999999999 < d.bound.toNat)

theorem entryItemsOf_eq_none : entryItemsOf d = none ↔
    3 < d.cls.toNat ∨ 2 < d.source.toNat ∨ 2 < d.check.toNat ∨ 2 < d.exitOption.toNat := by
  rw [← classOfByte_eq_none, ← sourceOfByte_eq_none, ← checkOfByte_eq_none, ← actionOfByte_eq_none]
  unfold entryItemsOf
  cases classOfByte d.cls with
  | none => simp
  | some cls =>
    cases sourceOfByte d.source with
    | none => simp
    | some source =>
      cases checkOfByte d.check with
      | none => simp
      | some check => cases actionOfByte d.exitOption <;> simp

/-- R27, R29: the items that the second check looks at. -/
theorem entryItemsOf_some {e : EntryItems} (h : entryItemsOf d = some e) :
    d.cls = e.cls.codeByte ∧ d.check = e.check.codeByte ∧ e.continuation = continuationOf d ∧
      (e.cls = .amount → e.scale = d.scale.toNat ∧ e.bound = d.bound.toNat) := by
  unfold entryItemsOf at h
  split at h
  · rename_i cls source check exitOption hcls hsource hcheck hexit
    obtain rfl := Option.some.inj h
    exact ⟨classOfByte_eq_some hcls, checkOfByte_eq_some hcheck, rfl, by rintro (rfl : cls = .amount); exact ⟨rfl, rfl⟩⟩
  · cases h

theorem continuationOf_eq_none : continuationOf d = none ↔ d.continuation = 0xFF#8 := by
  simp [continuationOf]

/-- R31 check 2, class by class. -/
theorem combinationHolds_iff {e : EntryItems} (h : entryItemsOf d = some e) :
    combinationHolds e d.length.toNat = true ↔ ¬CombinationFails d := by
  obtain ⟨hcls, hcheck, link, amount⟩ := entryItemsOf_some h
  unfold combinationHolds CombinationFails
  rw [hcls, hcheck, link]
  cases cls : e.cls with
  | alpha => cases e.check <;> simp [FieldClass.codeByte, CheckKind.codeByte]
  | code => cases e.check <;> simp [FieldClass.codeByte, CheckKind.codeByte, continuationOf_eq_none]
  | digits => simp [FieldClass.codeByte, continuationOf_eq_none]
  | amount =>
    obtain ⟨scale, bound⟩ := amount cls
    cases e.check <;>
      simp [FieldClass.codeByte, CheckKind.codeByte, continuationOf_eq_none, scale, bound]
    tauto

theorem defineFailsAlone_iff : DefineFailsAlone d ↔ (95 < d.number.toNat ∨ d.length.toNat = 0 ∨ 240 < d.length.toNat) ∨
    1 < d.kind.toNat ∨ intensityOfByte d.presentation = none ∨
      d.kind = 0x01#8 ∧ (entryItemsOf d = none ∨ CombinationFails d) := by
  simp only [DefineFailsAlone, CombinationFails, intensityOfByte_eq_none, entryItemsOf_eq_none, or_assoc]

/-- R30, R31: checks 1 and 2 fail exactly on the operands that no page and no position admits. -/
theorem fieldOf_eq_none : fieldOf d start = none ↔ DefineFailsAlone d := by
  rw [defineFailsAlone_iff]
  unfold fieldOf
  by_cases sizes : 95 < d.number.toNat ∨ d.length.toNat = 0 ∨ 240 < d.length.toNat
  · exact iff_of_true (if_pos sizes) (.inl sizes)
  rw [if_neg sizes]
  cases intensity : intensityOfByte d.presentation with
  | none => simp
  | some i =>
    simp only [sizes, false_or, reduceCtorEq]
    split
    · rename_i zero
      have other : d.kind ≠ 0x01#8 := fun e => by simp [e] at zero
      simp [zero, other]
    · rename_i one
      have same : d.kind = 0x01#8 := BitVec.eq_of_toNat_eq one
      cases items : entryItemsOf d with
      | none => simp [same]
      | some e => simp [same, combinationHolds_iff items]
    · have above : 1 < d.kind.toNat := by
        have : ∀ n, n ≠ 0 → n ≠ 1 → 1 < n := by omega
        exact this _ ‹_› ‹_›
      simp [above]

/-- R29, R33: only an ALPHA field has a link. -/
theorem entryItemsOf_continuation {e : EntryItems} (h : entryItemsOf d = some e)
    (holds : combinationHolds e d.length.toNat = true) :
    e.continuation = if d.cls = 0x00#8 then continuationOf d else none := by
  obtain ⟨-, -, link, -⟩ := entryItemsOf_some h
  have fails := (combinationHolds_iff h).1 holds
  split
  · exact link
  · rename_i other
    rw [link, continuationOf_eq_none]
    by_contra leads
    exact fails (.inr (.inr (.inl ⟨other, leads⟩)))

/-- R30: the record that the operands describe. -/
theorem fieldOf_operands (h : fieldOf d start = some f) : f.number = d.number.toNat ∧ f.length = d.length.toNat ∧
    f.continuation = if d.kind = 0x01#8 ∧ d.cls = 0x00#8 then continuationOf d else none := by
  unfold fieldOf at h
  split at h
  · cases h
  split at h
  · cases h
  split at h
  · rename_i zero
    obtain rfl := Option.some.inj h
    have other : ¬(d.kind = 0x01#8 ∧ d.cls = 0x00#8) := fun e => by simp [e.1] at zero
    exact ⟨rfl, rfl, (if_neg other).symm⟩
  · rename_i one
    have same : d.kind = 0x01#8 := BitVec.eq_of_toNat_eq one
    cases items : entryItemsOf d with
    | none => simp [items] at h
    | some e =>
      obtain ⟨holds, rfl⟩ : combinationHolds e d.length.toNat = true ∧ _ := by
        simpa only [items, Option.ite_none_right_eq_some, Option.some.injEq] using h
      refine ⟨rfl, rfl, (entryItemsOf_continuation items holds).trans ?_⟩
      simp only [same, true_and]
  · cases h

/-- R33: the link that an ENTRY field of class ALPHA is given finds no ALPHA field behind it that is free. -/
def LinkFails (d : DefineOperands) (g : Page) (start : Nat) : Prop :=
  d.kind = 0x01#8 ∧ d.cls = 0x00#8 ∧ d.continuation ≠ 0xFF#8 ∧
    ((∀ f ∈ g.fields, f.number = d.continuation.toNat → f.isAlpha = false ∨ f.start < start + d.length.toNat) ∨
      ∃ f ∈ g.fields, f.continuation = some d.continuation.toNat)

/-- R33: the sixth check. -/
theorem Page.FieldLaw.linkHolds_iff (law : g.FieldLaw) (h : fieldOf d start = some f) :
    g.linkHolds f = true ↔ ¬LinkFails d g start := by
  obtain ⟨-, room, -, place, -⟩ := fieldOf_sound h
  obtain ⟨-, length, link⟩ := fieldOf_operands h
  have last : f.last + 1 = start + d.length.toNat := by
    unfold Field.last
    omega
  rw [Page.linkHolds_iff]
  by_cases leads : (d.kind = 0x01#8 ∧ d.cls = 0x00#8) ∧ d.continuation ≠ 0xFF#8
  · obtain ⟨alpha, there⟩ := leads
    rw [if_pos alpha, continuationOf, if_neg there] at link
    simp only [link, Option.some.injEq, forall_eq', LinkFails, alpha.1, alpha.2, ne_eq, there, not_false_eq_true, true_and,
      not_or]
    refine and_congr ⟨fun ⟨x, found, alpha', behind⟩ none_ => ?_, fun some_ => ?_⟩ (by simp)
    · obtain ⟨hx, number⟩ := Page.fieldNumbered_some found
      rcases none_ x hx number with e | e
      · simp [alpha'] at e
      · omega
    · simp only [not_forall] at some_
      obtain ⟨x, hx, number, fails⟩ := some_
      obtain ⟨alpha', behind⟩ := not_or.1 fails
      exact ⟨x, law.fieldNumbered hx number, by simpa using alpha', by omega⟩
  · have none_ : f.continuation = none := by
      rw [link]
      split
      · rename_i alpha
        exact continuationOf_eq_none.2 (by_contra fun there => leads ⟨alpha, there⟩)
      · rfl
    exact iff_of_true (by simp [none_]) fun ⟨kind, cls, there, _⟩ => leads ⟨⟨kind, cls⟩, there⟩

/-- R31: checks 3 to 6. -/
theorem Page.FieldLaw.admitsField_iff (law : g.FieldLaw) (h : fieldOf d start = some f) :
    g.admitsField f = true ↔ ¬DefineFailsInPage d g start := by
  obtain ⟨-, room, -, place, -⟩ := fieldOf_sound h
  obtain ⟨number, length, -⟩ := fieldOf_operands h
  have last : f.last + 1 = start + d.length.toNat := by
    unfold Field.last
    omega
  have fails : DefineFailsInPage d g start ↔ 1920 < start + d.length.toNat ∨ (∃ x ∈ g.fields, x.number = d.number.toNat) ∨
      (∃ x ∈ g.fields, x.start < start + d.length.toNat ∧ start < x.start + x.length) ∨ LinkFails d g start := Iff.rfl
  rw [Page.admitsField_iff, fails, law.linkHolds_iff h]
  simp only [not_or, not_exists, not_and]
  refine and_congr (by omega) (and_congr (by rw [number]) (and_congr (forall₂_congr fun x hx => ?_) Iff.rfl))
  have := law.extent x hx
  unfold Field.last at last ⊢
  omega

/-- R31: a DEFINE that fails a check. -/
theorem State.orderDefine_badField (law : DefineFailsAlone d ∨ (s.page p).FieldLaw)
    (fails : DefineFailsAlone d ∨ DefineFailsInPage d (s.page p) start) :
    s.orderDefine p start d = .failed .badField s := by
  unfold State.orderDefine
  cases described : fieldOf d start with
  | none => rfl
  | some f =>
    have passes : ¬DefineFailsAlone d := fun alone => by simp [fieldOf_eq_none.2 alone] at described
    have refused : ¬(s.page p).admitsField f = true := fun admitted =>
      ((law.resolve_left passes).admitsField_iff described).1 admitted (fails.resolve_left passes)
    simp [refused]

/-- R25, R31: a DEFINE that passes the checks with no record free. -/
theorem State.orderDefine_pool (law : (s.page p).FieldLaw) (alone : ¬DefineFailsAlone d)
    (inPage : ¬DefineFailsInPage d (s.page p) start) (taken : 256 ≤ s.recordsInUse) :
    s.orderDefine p start d = .failed .pool s := by
  unfold State.orderDefine
  cases described : fieldOf d start with
  | none => exact absurd (fieldOf_eq_none.1 described) alone
  | some f => simp [(law.admitsField_iff described).2 inPage, State.freeRecords_eq_zero.2 taken]

end define

end Sys2Proof.Machine

/-! # Orders that fail

An order fails by its operands alone, in a page and in a STORE with the same status (R124, R162); or it fails against its
page. Either way the transaction is aborted (R127). -/

namespace Sys2Proof.Machine

section failing

variable {s : State} {t : Transaction} {k : Kind} {p : PageNum} {o : OrderCode} {operands : List Byte} {status : Status}
  {n : Nat}

/-- R124: an order with n operand bytes is read with its last. -/
theorem operandsRead_fixed (fixed : ∀ l, operandsRead o l = if n ≤ l.length then .complete else .more)
    (length : operands.length = n) :
    (∀ m, 1 ≤ m → m < operands.length → operandsRead o (operands.take m) = .more) ∧
      operandsRead o operands = .complete :=
  ⟨fun m _ below => by rw [fixed, if_neg (by simp; omega)], by rw [fixed, if_pos length.ge]⟩

/-- R162: an order that a template can hold, and that is refused for its form, fails in a page with the same status. -/
theorem State.pageOrder_of_formFailure (s : State) (k : Kind) (p : PageNum) (place : Nat)
    (recorded : o.allowedIn .store = true) (fails : formFailure o operands = some status) :
    s.pageOrder k p place o operands = .failed status s := by
  have counted {m : Nat} {x : Status} (h : (if 1 ≤ m ∧ m ≤ 1920 then none else some Status.badPos) = some x) :
      countHolds m = false ∧ x = .badPos := by
    split at h <;> simp_all [countHolds]
  cases o with
  | setpos | cursor =>
    simp only [formFailure] at fails
    split at fails
    · cases fails
    · rename_i out
      obtain rfl := Option.some.inj fails
      simp only [State.pageOrder, Option.not_isSome_iff_eq_none.1 out]
  | repeatChar | clear =>
    obtain ⟨out, rfl⟩ := counted fails
    exact if_neg (ne_true_of_eq_false out)
  | define =>
    simp only [formFailure] at fails
    split at fails
    · cases fails
    · rename_i out
      obtain rfl := Option.some.inj fails
      exact State.orderDefine_badField (.inl (fieldOf_eq_none.1 (Option.not_isSome_iff_eq_none.1 out)))
        (.inl (fieldOf_eq_none.1 (Option.not_isSome_iff_eq_none.1 out)))
  | chain =>
    simp only [formFailure] at fails
    split at fails
    · cases fails
    · rename_i out
      obtain rfl := Option.some.inj fails
      simp only [State.pageOrder, State.orderChain, Option.not_isSome_iff_eq_none.1 out]
  | select =>
    simp only [formFailure] at fails
    split at fails
    · cases fails
    · rename_i out
      obtain rfl := Option.some.inj fails
      obtain ⟨some_, out⟩ := not_or.1 out
      simp only [State.pageOrder, State.orderSelect, if_neg some_, Option.not_isSome_iff_eq_none.1 out]
  | text | message => cases fails
  | _ => cases recorded

/-- An order of the transaction has a page in which it is carried out, or a slot in which it is recorded. -/
def Transaction.Carries (t : Transaction) (k : Kind) : Prop :=
  t.page ≠ none ∧ k ≠ .store ∨ slotOfByte (t.operands.getD 0 0x00#8) ≠ none ∧ k = .store

/-- R124, R162: an order is carried out in its page, unless it is a RECALL. -/
theorem State.carryOut_page (v : State) (kind : t.kind = some k) (page : t.page = some p) (store : k ≠ .store)
    (order : o ≠ .recall) :
    v.carryOut (t.reading o operands) o operands = v.pageOrder k p t.writePos o operands := by
  have kind' : (t.reading o operands).kind = some k := kind
  have page' : (t.reading o operands).page = some p := page
  rw [State.carryOut, kind', page']
  cases k with
  | store => exact absurd rfl store
  | _ => exact if_neg order

/-- R124, R162: an order that fails for its form. -/
theorem State.carryOut_of_formFailure (v : State) (kind : t.kind = some k) (carries : t.Carries k)
    (recorded : o.allowedIn .store = true) (fails : formFailure o operands = some status) :
    v.carryOut (t.reading o operands) o operands = .failed status v := by
  rcases carries with ⟨page, store⟩ | ⟨slot, rfl⟩
  · obtain ⟨p, page⟩ := Option.ne_none_iff_exists'.1 page
    rw [State.carryOut_page v kind page store (by rintro rfl; cases recorded)]
    exact State.pageOrder_of_formFailure v k p _ recorded fails
  · obtain ⟨n, slot⟩ := Option.ne_none_iff_exists'.1 slot
    have kind' : (t.reading o operands).kind = some .store := kind
    have slot' : slotOfByte ((t.reading o operands).operands.getD 0 0x00#8) = some n := slot
    simp only [State.carryOut, kind', slot', State.recordOrder, fails]

/-- R124, R162: an order that fails for its form aborts the transaction. -/
theorem State.aborts_of_formFailure {c : Instr} (due : s.orderDue t k) (held : s.nothingHeld) (carries : t.Carries k)
    (sent : exec c s = .next (s.takeStream (o.code :: operands))) (allowed : o.allowedIn k = true)
    (recorded : o.allowedIn .store = true)
    (read : (∀ m, 1 ≤ m → m < operands.length → operandsRead o (operands.take m) = .more) ∧
      operandsRead o operands = .complete) (some_ : operands ≠ [])
    (fails : formFailure o operands = some status) : s.Aborts t k c status :=
  State.aborts_failed due held sent allowed read some_ fun v _ _ =>
    State.carryOut_of_formFailure v due.2.2.1 carries recorded fails

/-- R124: an order that fails against its page aborts the transaction. -/
theorem State.aborts_of_pageOrder {c : Instr} (due : s.orderDue t k) (held : s.nothingHeld) (page : t.page = some p)
    (store : k ≠ .store) (order : o ≠ .recall) (sent : exec c s = .next (s.takeStream (o.code :: operands)))
    (allowed : o.allowedIn k = true)
    (read : (∀ m, 1 ≤ m → m < operands.length → operandsRead o (operands.take m) = .more) ∧
      operandsRead o operands = .complete) (some_ : operands ≠ [])
    (fails : ∀ v : State, v.pages = s.pages → v.pageOrder k p t.writePos o operands = .failed status v) :
    s.Aborts t k c status :=
  State.aborts_failed due held sent allowed read some_ fun v pages _ =>
    (State.carryOut_page v due.2.2.1 page store order).trans (fails v pages)

/-! ## Failures by form -/

theorem positionOf_eq_none {row column : Byte} (out : 23 < row.toNat ∨ 79 < column.toNat) :
    positionOf row column = none := if_neg (by omega)

/-- R131, R137: SETPOS and CURSOR outside the form area. -/
theorem formFailure_position {row column : Byte} (h : o = .setpos ∨ o = .cursor)
    (out : 23 < row.toNat ∨ 79 < column.toNat) : formFailure o [row, column] = some .badPos := by
  have none_ := positionOf_eq_none out
  rcases h with rfl | rfl <;> simp [formFailure, none_]

/-- R133: REPEAT and CLEAR with a count out of range. -/
theorem formFailure_count {b : Byte} {count : BitVec 16} (out : count.toNat = 0 ∨ 1920 < count.toNat) :
    formFailure .repeatChar [b, count.extractLsb' 8 8, count.extractLsb' 0 8] = some .badPos ∧
      formFailure .clear [count.extractLsb' 8 8, count.extractLsb' 0 8] = some .badPos := by
  have range : ¬(1 ≤ count.toNat ∧ count.toNat ≤ 1920) := by omega
  simp [formFailure, countOf_extractLsb', range]

/-- R118: SELECT of no chain id. -/
theorem formFailure_select {id : Byte} (above : 3 < id.toNat) (some_ : id ≠ 0xFF#8) :
    formFailure .select [id] = some .badOrder := by
  simp [formFailure, some_, chainOfByte_eq_none.2 above]

/-- R117: CHAIN with an id, an action or a count out of range. -/
theorem formFailure_chain {id action count follow m : Byte} {members : List Byte}
    (out : 3 < id.toNat ∨ 2 < action.toNat ∨ count.toNat = 0) :
    formFailure .chain (id :: action :: count :: follow :: m :: members) = some .badOrder := by
  have none_ : chainOf (id :: action :: count :: follow :: m :: members) = none := by
    unfold chainOf
    rcases out with above | above | zero
    · simp only [chainOfByte_eq_none.2 above]
    · simp only [actionOfByte_eq_none.2 above]
      split <;> simp_all
    · simp only [zero, true_or, if_true]
      split <;> rfl
  simp [formFailure, none_]

/-- R30, R31: DEFINE with operands that no page admits. -/
theorem formFailure_define {d : DefineOperands} (fails : DefineFailsAlone d) :
    formFailure .define (defineBytes d) = some .badField := by
  simp [formFailure, defineOf_defineBytes, fieldOf_eq_none.2 fails]

/-- R124: a CHAIN with a member count out of range is refused at that count. -/
theorem operandsRead_chain_refused {id action count follow m : Byte} (out : m.toNat = 0 ∨ 16 < m.toNat) :
    (∀ n, 1 ≤ n → n < [id, action, count, follow, m].length →
      operandsRead .chain ([id, action, count, follow, m].take n) = .more) ∧
    operandsRead .chain [id, action, count, follow, m] = .refused .badOrder := by
  refine ⟨fun n from_ below => ?_, if_pos out⟩
  match n, from_, below with
  | 1, _, _ | 2, _, _ | 3, _, _ | 4, _, _ => rfl

end failing

/-! ## The orders, one by one -/

section orders

variable {s : State} {t : Transaction} {k : Kind} {p : PageNum}

theorem State.aborts_setpos {row column : Byte} (due : s.orderDue t k) (held : s.nothingHeld) (carries : t.Carries k)
    (allowed : OrderCode.setpos.allowedIn k = true) (out : 23 < row.toNat ∨ 79 < column.toNat) :
    s.Aborts t k (.setpos row column) .badPos :=
  State.aborts_of_formFailure (o := .setpos) due held carries rfl allowed rfl
    (operandsRead_fixed (n := 2) (fun _ => rfl) rfl) (List.cons_ne_nil _ _) (formFailure_position (.inl rfl) out)

theorem State.aborts_cursor {row column : Byte} (due : s.orderDue t k) (held : s.nothingHeld) (carries : t.Carries k)
    (allowed : OrderCode.cursor.allowedIn k = true) (out : 23 < row.toNat ∨ 79 < column.toNat) :
    s.Aborts t k (.cursor row column) .badPos :=
  State.aborts_of_formFailure (o := .cursor) due held carries rfl allowed rfl
    (operandsRead_fixed (n := 2) (fun _ => rfl) rfl) (List.cons_ne_nil _ _) (formFailure_position (.inr rfl) out)

theorem State.aborts_text (due : s.orderDue t k) (held : s.nothingHeld) (allowed : OrderCode.text.allowedIn k = true) :
    s.Aborts t k (.text 0x00#8 []) .badPos :=
  State.aborts_refusedCount (o := .text) (operands := [0x00#8]) due held rfl allowed
    (fun n from_ below => by simp at below; omega) rfl (List.cons_ne_nil _ _)

theorem State.aborts_repeatChar {b : Byte} {n : BitVec 16} (due : s.orderDue t k) (held : s.nothingHeld)
    (carries : t.Carries k) (allowed : OrderCode.repeatChar.allowedIn k = true) (out : n.toNat = 0 ∨ 1920 < n.toNat) :
    s.Aborts t k (.repeatChar b n) .badPos :=
  State.aborts_of_formFailure (o := .repeatChar) due held carries rfl allowed rfl
    (operandsRead_fixed (n := 3) (fun _ => rfl) rfl) (List.cons_ne_nil _ _) (formFailure_count out).1

theorem State.aborts_clear {n : BitVec 16} (due : s.orderDue t k) (held : s.nothingHeld)
    (carries : t.Carries k) (allowed : OrderCode.clear.allowedIn k = true) (out : n.toNat = 0 ∨ 1920 < n.toNat) :
    s.Aborts t k (.clear n) .badPos :=
  State.aborts_of_formFailure (o := .clear) due held carries rfl allowed rfl
    (operandsRead_fixed (n := 2) (fun _ => rfl) rfl) (List.cons_ne_nil _ _) (formFailure_count (b := 0x00#8) out).2

theorem State.aborts_message {n : Byte} (due : s.orderDue t k) (held : s.nothingHeld)
    (allowed : OrderCode.message.allowedIn k = true) (above : 56 < n.toNat) : s.Aborts t k (.message n []) .badOrder :=
  State.aborts_refusedCount (o := .message) (operands := [n]) due held rfl allowed
    (fun m from_ below => by simp at below; omega) (if_pos above) (List.cons_ne_nil _ _)

theorem State.aborts_select {id : Byte} (due : s.orderDue t k) (held : s.nothingHeld) (carries : t.Carries k)
    (allowed : OrderCode.select.allowedIn k = true) (above : 3 < id.toNat) (some_ : id ≠ 0xFF#8) :
    s.Aborts t k (.select id) .badOrder :=
  State.aborts_of_formFailure (o := .select) due held carries rfl allowed rfl
    (operandsRead_fixed (n := 1) (fun _ => rfl) rfl) (List.cons_ne_nil _ _) (formFailure_select above some_)

/-- R117, R124: a CHAIN whose member count is out of range. -/
theorem State.aborts_chainCount {id action count follow m : Byte} (due : s.orderDue t k) (held : s.nothingHeld)
    (allowed : OrderCode.chain.allowedIn k = true) (out : m.toNat = 0 ∨ 16 < m.toNat) :
    s.Aborts t k (.chain id action count follow m []) .badOrder :=
  have ⟨more, read⟩ := operandsRead_chain_refused out
  State.aborts_refusedCount (o := .chain) due held rfl allowed more read (List.cons_ne_nil _ _)

theorem State.aborts_chain {id action count follow m : Byte} {members : List Byte} (due : s.orderDue t k)
    (held : s.nothingHeld) (carries : t.Carries k) (allowed : OrderCode.chain.allowedIn k = true)
    (length : members.length = m.toNat) (most : m.toNat ≤ 16)
    (out : 3 < id.toNat ∨ 2 < action.toNat ∨ count.toNat = 0 ∨ m.toNat = 0) :
    s.Aborts t k (.chain id action count follow m members) .badOrder := by
  by_cases zero : m.toNat = 0
  · obtain rfl := List.length_eq_zero_iff.1 (length.trans zero)
    exact State.aborts_chainCount due held allowed (.inl zero)
  · exact State.aborts_of_formFailure (o := .chain) due held carries rfl allowed rfl
      (operandsRead_chain (by omega) most length) (List.cons_ne_nil _ _) (formFailure_chain (by tauto))

/-- R31, checks 1 and 2. -/
theorem State.aborts_define_alone {d : DefineOperands} (due : s.orderDue t k) (held : s.nothingHeld)
    (carries : t.Carries k) (allowed : OrderCode.define.allowedIn k = true) (fails : DefineFailsAlone d) :
    s.Aborts t k (.define d) .badField :=
  State.aborts_of_formFailure (o := .define) due held carries rfl allowed rfl
    (operandsRead_fixed (n := 15) (fun _ => rfl) rfl) (List.cons_ne_nil _ _) (formFailure_define fails)

/-- R25, R31: a DEFINE that its page refuses, or that finds no free record. -/
theorem State.aborts_define {d : DefineOperands} {status : Status} (due : s.orderDue t k) (held : s.nothingHeld)
    (page : t.page = some p) (store : k ≠ .store) (allowed : OrderCode.define.allowedIn k = true)
    (law : (s.page p).FieldLaw)
    (fails : DefineFailsInPage d (s.page p) t.writePos ∧ status = .badField ∨
      ¬DefineFailsAlone d ∧ ¬DefineFailsInPage d (s.page p) t.writePos ∧ 256 ≤ s.recordsInUse ∧ status = .pool) :
    s.Aborts t k (.define d) status := by
  refine State.aborts_of_pageOrder (o := .define) (operands := defineBytes d) due held page store nofun rfl allowed
    (operandsRead_fixed (n := 15) (fun _ => rfl) rfl) (List.cons_ne_nil _ _) fun v pages => ?_
  have same : v.page p = s.page p := by rw [State.page, State.page, pages]
  have used : v.recordsInUse = s.recordsInUse := by simp only [State.recordsInUse, State.page, pages]
  rw [← same] at law fails
  rw [State.pageOrder, defineOf_defineBytes]
  rcases fails with ⟨inPage, rfl⟩ | ⟨alone, inPage, taken, rfl⟩
  · exact State.orderDefine_badField (.inr law) (.inr inPage)
  · exact State.orderDefine_pool law alone inPage (used ▸ taken)

/-- R40: MARK checks its code before its field. -/
theorem State.aborts_mark {n code : Byte} (due : s.orderDue t k) (held : s.nothingHeld) (page : t.page = some p)
    (allowed : OrderCode.mark.allowedIn k = true) (above : 99 < code.toNat) : s.Aborts t k (.mark n code) .badOrder :=
  State.aborts_of_pageOrder (o := .mark) due held page (by rintro rfl; cases allowed) nofun rfl allowed
    (operandsRead_fixed (n := 2) (fun _ => rfl) rfl) (List.cons_ne_nil _ _) fun _ _ => if_pos above

theorem State.aborts_unchain {id : Byte} (due : s.orderDue t k) (held : s.nothingHeld) (page : t.page = some p)
    (allowed : OrderCode.unchain.allowedIn k = true) (above : 3 < id.toNat) : s.Aborts t k (.unchain id) .badOrder :=
  State.aborts_of_pageOrder (o := .unchain) due held page (by rintro rfl; cases allowed) nofun rfl allowed
    (operandsRead_fixed (n := 1) (fun _ => rfl) rfl) (List.cons_ne_nil _ _) fun _ _ => by
      simp [State.pageOrder, State.orderUnchain, chainOfByte_eq_none.2 above]

/-- R139, R165: a RECALL that is not the first order, or that its slot refuses. -/
theorem State.aborts_recall {slot : Byte} {status : Status} (due : s.orderDue t .load) (page : t.page = some p)
    (fails : t.index ≠ 0 ∧ status = .badOrder ∨ t.index = 0 ∧ s.recallRefusal slot = some status) :
    s.Aborts t .load (.recall slot) status := by
  obtain ⟨-, ht, kind, -, -⟩ := id due
  refine State.aborts_failed (o := .recall) (operands := [slot]) due (State.nothingHeld_of_kind ht kind (by simp)) rfl rfl
    (operandsRead_fixed (n := 1) (fun _ => rfl) rfl) (List.cons_ne_nil _ _) fun v _ store => ?_
  have kind' : (t.reading .recall [slot]).kind = some .load := kind
  have page' : (t.reading .recall [slot]).page = some p := page
  have index : (t.reading .recall [slot]).index = min (t.index + 1) 255 := nextIndex_eq t
  have refusal : v.recallRefusal slot = s.recallRefusal slot := by
    unfold State.recallRefusal State.slot State.arrayBusy
    rw [store]
  have recall_ : v.carryOut (t.reading .recall [slot]) .recall [slot] = v.orderRecall p (min (t.index + 1) 255) slot := by
    simp only [State.carryOut, kind', page', index, if_true, List.getD_cons_zero]
  rw [recall_, State.orderRecall]
  rcases fails with ⟨later, rfl⟩ | ⟨first, refused⟩
  · exact if_pos (by omega)
  · rw [if_neg (by omega), refusal, refused]

end orders

end Sys2Proof.Machine

namespace Sys2Proof.Machine

/-! ## Which orders a kind allows -/

section allowed

variable {s : State} {t : Transaction} {k : Kind} {slot : Byte} {n : SlotNum}

/-- Section 7.5: the codes of the orders that a kind allows. -/
def orderCodes : Kind → List Byte
  | .load => [0x11#8, 0x12#8, 0x13#8, 0x14#8, 0x15#8, 0x16#8, 0x17#8, 0x18#8, 0x1B#8, 0x1D#8, 0x1E#8]
  | .amend | .reopen => [0x11#8, 0x12#8, 0x13#8, 0x14#8, 0x15#8, 0x16#8, 0x17#8, 0x18#8, 0x19#8, 0x1A#8, 0x1B#8,
      0x1C#8, 0x1E#8]
  | .post => [0x11#8, 0x12#8, 0x13#8, 0x14#8, 0x18#8, 0x19#8]
  | .store => [0x11#8, 0x12#8, 0x13#8, 0x14#8, 0x15#8, 0x17#8, 0x18#8, 0x1B#8, 0x1E#8]
  | .close | .restart | .setup | .query | .erase | .pause | .resume => []

theorem OrderCode.code_mem_orderCodes (o : OrderCode) (k : Kind) (allowed : o.allowedIn k = true) :
    o.code ∈ orderCodes k := by
  cases o <;> cases k <;> revert allowed <;> decide

theorem OrderCode.code_ne_of_not_mem {b : Byte} (absent : b ∉ orderCodes k) (o : OrderCode)
    (allowed : o.allowedIn k = true) : b ≠ o.code := by
  rintro rfl
  exact absent (o.code_mem_orderCodes k allowed)

/-- Section 7.5: a LOAD, an AMEND, a REOPEN and a STORE allow the orders that set a form up. -/
theorem Transaction.carries_of_forming (h : (t.page ≠ none ∧ (k = .load ∨ k = .amend ∨ k = .reopen)) ∨
    slotOfByte (t.operands.getD 0 0x00#8) ≠ none ∧ k = .store) : t.Carries k ∧ OrderCode.cursor.allowedIn k = true ∧
      OrderCode.select.allowedIn k = true ∧ OrderCode.chain.allowedIn k = true ∧ OrderCode.define.allowedIn k = true := by
  rcases h with ⟨page, rfl | rfl | rfl⟩ | ⟨slot, rfl⟩
  · exact ⟨.inl ⟨page, nofun⟩, rfl, rfl, rfl, rfl⟩
  · exact ⟨.inl ⟨page, nofun⟩, rfl, rfl, rfl, rfl⟩
  · exact ⟨.inl ⟨page, nofun⟩, rfl, rfl, rfl, rfl⟩
  · exact ⟨.inr ⟨slot, rfl⟩, rfl, rfl, rfl, rfl⟩

/-- Section 7.5: the orders that write a page are allowed in a STORE too. -/
theorem Transaction.carries_of_writing (h : (t.page ≠ none ∧ (k = .load ∨ k = .amend ∨ k = .reopen)) ∨
    (t.page ≠ none ∧ k = .post) ∨ slotOfByte (t.operands.getD 0 0x00#8) ≠ none ∧ k = .store) : t.Carries k ∧
      ∀ o : OrderCode, o = .setpos ∨ o = .text ∨ o = .repeatChar ∨ o = .clear ∨ o = .message → o.allowedIn k = true := by
  have paged (page : t.page ≠ none) (kind : k = .load ∨ k = .amend ∨ k = .reopen ∨ k = .post) := by
    obtain ⟨store, allowed, -⟩ := OrderCode.allowedIn_of_writing kind
    exact And.intro (show t.Carries k from .inl ⟨page, store⟩) allowed
  rcases h with ⟨page, kind⟩ | ⟨page, kind⟩ | ⟨slot, rfl⟩
  · exact paged page (by tauto)
  · exact paged page (by tauto)
  · exact ⟨.inr ⟨slot, rfl⟩, by rintro o (rfl | rfl | rfl | rfl | rfl) <;> rfl⟩

/-- R165: a RECALL of a byte that names no slot. -/
theorem State.recallRefusal_of_above (above : 23 < slot.toNat) : s.recallRefusal slot = some .badSlot := by
  simp only [State.recallRefusal, Option.isNone_iff_eq_none.1 (slotOfByte_isNone.2 above)]

/-- R165: what the state of a slot, and for a FILLED one the erase unit, makes of a RECALL. -/
theorem State.recallRefusal_of_slot {status : Status}
    (h : (s.slot n).state = .blank ∧ status = .badSlot ∨ (s.slot n).state = .failed ∧ status = .badSlot ∨
      (s.slot n).state = .recording ∧ status = .slotBusy ∨ (s.slot n).state.inEraseWork = true ∧ status = .slotBusy ∨
      (s.slot n).state = .filled ∧ status = .busy ∧
        (s.store.unit.state = .erasing ∨ s.store.unit.state = .pausing)) :
    s.recallRefusal (byteOf n.val) = some status := by
  simp only [State.recallRefusal, slotOfByte_byteOf]
  rcases h with ⟨state, rfl⟩ | ⟨state, rfl⟩ | ⟨state, rfl⟩ | ⟨work, rfl⟩ | ⟨state, rfl, busy⟩
  · simp only [state]
  · simp only [state]
  · simp only [state]
  · cases state : (s.slot n).state with
    | queued | erasing | held => rfl
    | _ => simp [state, SlotState.inEraseWork] at work
  · have array : s.arrayBusy = true := by simpa [State.arrayBusy] using busy
    simp only [state, array, if_true]

end allowed

/-- Settles O26: each order fails by its form, at its count, or against its page, and the abort does the rest. -/
theorem refusedOrdersAbort : Obligations.RefusedOrdersAbort := by
  intro s t k due held paged amending posting storing allowed
  obtain ⟨-, ht, kind, -, -⟩ := id due
  refine ⟨⟨_, exec_aborted due, State.closedTo_openTransaction (State.closedTo_abort .header t.next ht rfl kind held)⟩,
    fun c status h => ?_⟩
  show s.Aborts t k c status
  rcases h with ⟨b, rfl, start, finish, absent, rfl⟩ | ⟨writing, h⟩ | ⟨forming, h⟩ | ⟨marking, n, code, rfl, above, rfl⟩ |
    ⟨⟨page, kind'⟩, h⟩
  · exact State.aborts_badOrderCode due held start finish (OrderCode.code_ne_of_not_mem absent)
  · obtain ⟨carries, allows⟩ := Transaction.carries_of_writing writing
    rcases h with ⟨row, column, rfl, out, rfl⟩ | ⟨rfl, rfl⟩ | ⟨b, n, rfl | rfl, out, rfl⟩ | ⟨n, rfl, above, rfl⟩
    · exact State.aborts_setpos due held carries (allows _ (by simp)) out
    · exact State.aborts_text due held (allows _ (by simp))
    · exact State.aborts_repeatChar due held carries (allows _ (by simp)) out
    · exact State.aborts_clear due held carries (allows _ (by simp)) out
    · exact State.aborts_message due held (allows _ (by simp)) above
  · obtain ⟨carries, cursor, select, chain, define⟩ := Transaction.carries_of_forming forming
    rcases h with ⟨row, column, rfl, out, rfl⟩ | ⟨id, rfl, above, some_, rfl⟩ |
      ⟨id, action, count, follow, m, members, rfl, length, most, rfl, out⟩ |
      ⟨id, action, count, follow, m, rfl, above, rfl⟩ | ⟨d, rfl, fails, rfl⟩
    · exact State.aborts_cursor due held carries cursor out
    · exact State.aborts_select due held carries select above some_
    · exact State.aborts_chain due held carries chain length most out
    · exact State.aborts_chainCount due held chain (.inr above)
    · exact State.aborts_define_alone due held carries define fails
  · have page : t.page ≠ none := marking.elim And.left And.left
    have allows : OrderCode.mark.allowedIn k = true := by
      rcases marking with ⟨-, rfl | rfl⟩ | ⟨-, rfl⟩ <;> rfl
    obtain ⟨p, page⟩ := Option.ne_none_iff_exists'.1 page
    exact State.aborts_mark due held page allows above
  · have allows : k ≠ .store ∧ OrderCode.unchain.allowedIn k = true ∧ OrderCode.define.allowedIn k = true := by
      rcases kind' with rfl | rfl <;> decide
    obtain ⟨store, unchain, define⟩ := allows
    rcases h with ⟨id, rfl, above, rfl⟩ | ⟨d, p, rfl, page, law, fails⟩
    · obtain ⟨p, page⟩ := Option.ne_none_iff_exists'.1 page
      exact State.aborts_unchain due held page unchain above
    · exact State.aborts_define due held page store define law fails

/-- Settles O27: a LOAD is aborted as any other transaction, and its page is released. -/
theorem failingOrdersAbortALoad : Obligations.FailingOrdersAbortALoad := by
  intro s t p due page law c status h
  obtain ⟨-, ht, kind, -, -⟩ := id due
  have held : s.nothingHeld := State.nothingHeld_of_kind ht kind (by simp)
  have released : s.afterAbort t .load = s.setPage p { Page.blank with serial := (s.page p).serial } := by
    simp only [State.afterAbort, page, if_true]
  rw [← released]
  show s.Aborts t .load c status
  have carries : t.Carries .load := .inl ⟨by simp [page], nofun⟩
  rcases h with ⟨b, rfl, rfl, absent⟩ | ⟨id, rfl, above, some_, rfl⟩ |
    ⟨id, action, count, follow, m, members, rfl, length, most, rfl, out⟩ |
    ⟨id, action, count, follow, m, rfl, above, rfl⟩ | ⟨slot, rfl, later, rfl⟩ | ⟨slot, rfl, first, above, rfl⟩ |
    ⟨n, rfl, first, refused⟩ | ⟨d, rfl, rfl, alone | inPage⟩ | ⟨d, rfl, rfl, taken, alone, inPage⟩
  · obtain ⟨start, absent⟩ := List.ne_and_not_mem_of_not_mem_cons absent
    obtain ⟨finish, absent⟩ := List.ne_and_not_mem_of_not_mem_cons absent
    exact State.aborts_badOrderCode due held start finish (OrderCode.code_ne_of_not_mem absent)
  · exact State.aborts_select due held carries rfl above some_
  · exact State.aborts_chain due held carries rfl length most out
  · exact State.aborts_chainCount due held rfl (.inr above)
  · exact State.aborts_recall due page (.inl ⟨later, rfl⟩)
  · exact State.aborts_recall due page (.inr ⟨first, State.recallRefusal_of_above above⟩)
  · exact State.aborts_recall due page (.inr ⟨first, State.recallRefusal_of_slot refused⟩)
  · exact State.aborts_define_alone due held carries rfl alone
  · exact State.aborts_define due held page nofun rfl law (.inl ⟨inPage, rfl⟩)
  · exact State.aborts_define due held page nofun rfl law (.inr ⟨alone, inPage, taken, rfl⟩)

end Sys2Proof.Machine

/-! # The Report Unit's law

R144, R145, R156: a report joins the queue only while an entry is free, and waits elsewhere only while none is. Most changes
go unheard in the Report Unit; a report that is made joins the queue or a waiting place; an entry that is freed is handed to
what waits, at once. -/

namespace Sys2Proof.Machine

/-! ## The bytes of a report -/

section bytes

variable (s : State) (r : Report)

theorem State.length_reportBytes : (s.reportBytes r).length = 3 + (s.reportBody r).length := by
  simp only [State.reportBytes, List.length_cons, List.length_append, length_twoBytes, Nat.add_comm]

theorem Cells.length_readRun (m : Cells) (start length : Nat) : (m.readRun start length).length = length := by
  simp [Cells.readRun]

theorem SentField.length_bytes (f : SentField) (cells : Cells) : (f.bytes cells).length = 2 + f.length := by
  simp only [SentField.bytes, List.length_cons, List.length_map, Cells.length_readRun]
  omega

theorem SentField.length_flatMap_bytes (fields : List SentField) (cells : Cells) :
    (fields.flatMap (·.bytes cells)).length = (fields.map fun f => 2 + f.length).sum := by
  simp only [List.length_flatMap, SentField.length_bytes]

theorem EntryReport.length_body (e : EntryReport) (cells : Cells) :
    (e.body cells).length = 6 + (e.fields.map fun f => 2 + f.length).sum := by
  rw [EntryReport.body, List.length_append, SentField.length_flatMap_bytes]
  rfl

/-- R147: a report's length is fixed when it is made. -/
theorem State.length_reportBytes_eq (t : State) : (t.reportBytes r).length = (s.reportBytes r).length := by
  rw [State.length_reportBytes, State.length_reportBytes]
  cases r with
  | entry e => simp only [State.reportBody, EntryReport.length_body]
  | attention | completion | status | eraseDone | start => rfl

end bytes

/-! ## Entries freed and not yet handed out -/

/-- The law of the Report Unit while n entries of the queue have been freed and are still to be handed out (R145, R156). -/
structure State.Freed (n : Nat) (s : State) : Prop where
  bound : s.reports.queue.length + n ≤ 8
  waiting : s.reports.queue.length + n < 8 → s.nothingWaits
  taken : match s.reports.queue with
    | [] => s.reports.taken = 0
    | r :: _ => s.reports.taken < (s.reportBytes r).length

theorem State.reportLaw_iff {s : State} : s.ReportLaw ↔ s.Freed 0 :=
  ⟨fun h => ⟨h.bound, h.waiting, h.taken⟩, fun h => ⟨h.bound, h.waiting, h.taken⟩⟩

section unit

variable {s t : State} {p : PageNum} {n : Nat}

theorem State.queueFull_iff : s.queueFull = true ↔ 8 ≤ s.reports.queue.length := by simp [State.queueFull]

/-- R144: a change that leaves the queue and its waiting places, and makes no attention pending. -/
theorem State.Freed.unheard (h : s.Freed n) (reports : t.reports = s.reports)
    (stalled : t.interp.stalled = s.interp.stalled)
    (attention : ∀ q, (t.page q).attention = (s.page q).attention ∨ (t.page q).attention = .empty) : t.Freed n where
  bound := by rw [reports]; exact h.bound
  waiting few := by
    rw [reports] at few
    obtain ⟨unstalled, unnoticed, empty⟩ := h.waiting few
    exact ⟨stalled.trans unstalled, by rw [reports, unnoticed], fun q => (attention q).elim (·.trans (empty q)) id⟩
  taken := by
    rw [reports]
    simpa only [t.length_reportBytes_eq _ s] using h.taken

/-- R145: a report joins the tail of a queue with a free entry. -/
theorem State.Freed.appended {m : Nat} (h : s.Freed m) {r : Report} (queue : t.reports.queue = s.reports.queue ++ [r])
    (taken : t.reports.taken = s.reports.taken) (room : s.reports.queue.length + 1 + n ≤ 8)
    (waiting : s.reports.queue.length + 1 + n < 8 → t.nothingWaits) : t.Freed n where
  bound := by simpa [queue] using room
  waiting := by simpa [queue] using waiting
  taken := by
    have head := h.taken
    rw [queue, taken]
    cases first : s.reports.queue with
    | nil =>
      simp only [first] at head
      simp only [head, List.nil_append, State.length_reportBytes]
      omega
    | cons x rest =>
      simp only [first] at head
      simpa only [List.cons_append, t.length_reportBytes_eq x s] using head

theorem AttentionSet.eq_empty_of_first {a : AttentionSet} (h : a.first = none) : a = .empty := by
  obtain ⟨key, chains, exit⟩ := a
  unfold AttentionSet.first at h
  split at h
  · cases h
  · split at h
    · cases h
    · rename_i off _ none_
      have clear (c : ChainId) : chains[c.val] = false := by
        simpa using List.find?_eq_none.1 none_ c (by revert c; decide)
      have chains_ : chains = Vector.replicate 4 false := Vector.ext fun i below => by
        simpa using clear ⟨i, below⟩
      simp_all [AttentionSet.empty]

/-- R156: without a first waiting cause no page has a pending one. -/
theorem State.attention_of_firstAttention (h : s.firstAttention = none) (q : PageNum) : (s.page q).attention = .empty := by
  have none_ := List.findSome?_eq_none_iff.1 h q (mem_allPages q)
  exact AttentionSet.eq_empty_of_first (by simpa using none_)

/-- R156: a freed entry goes to what waits, or stays free with nothing waiting. -/
theorem State.Freed.handFreed (h : s.Freed (n + 1)) : s.handFreed.Freed n := by
  have room := h.bound
  have handed {t : State} {r : Report} (waits : ¬s.nothingWaits) (queue : t.reports.queue = s.reports.queue ++ [r])
      (taken : t.reports.taken = s.reports.taken) : t.Freed n :=
    h.appended queue taken (by omega) fun few => absurd (h.waiting (by omega)) waits
  unfold State.handFreed
  split
  · rename_i stalled
    exact handed (fun idle => by simp [idle.1] at stalled) rfl rfl
  · rename_i notice
    exact handed (fun idle => by simp [idle.2.1] at notice) rfl rfl
  · rename_i cause _ _ first
    refine handed (fun idle => ?_) rfl rfl
    have none_ : s.firstAttention = none := by simp [State.firstAttention, idle.2.2, AttentionSet.first_empty]
    rw [none_] at first
    cases first
  · rename_i stalled notice first
    exact ⟨by omega, fun _ => ⟨stalled, notice, State.attention_of_firstAttention first⟩, h.taken⟩

/-- R156: several entries freed in one event. -/
theorem State.Freed.handFreedTimes (h : s.Freed n) : (State.handFreedTimes n s).ReportLaw := by
  induction n generalizing s with
  | zero => exact State.reportLaw_iff.2 h
  | succ n ih => exact ih h.handFreed

end unit

end Sys2Proof.Machine

namespace Sys2Proof.Machine

/-! ## Attention pending sets

Only an attention that is raised or handed out changes a page's pending set; release empties it. -/

section attention

variable (g : Page)

@[simp] theorem Page.attention_selectMember (n : Nat) : (g.selectMember n).attention = g.attention := by
  unfold Page.selectMember; split <;> rfl

@[simp] theorem Page.attention_updEntry (n : Nat) (change : EntryItems → EntryItems) :
    (g.updEntry n change).attention = g.attention := rfl

@[simp] theorem Page.attention_arrive (position : Nat) : (g.arrive position).attention = g.attention := by
  unfold Page.arrive
  simp only
  split
  · split
    · rfl
    · exact Page.attention_selectMember _ _
  · rfl

@[simp] theorem Page.attention_writeChecked (f : Field) (out : List Byte) :
    (g.writeChecked f out).attention = g.attention := by
  unfold Page.writeChecked; split <;> rfl

@[simp] theorem Page.attention_passExit (f : Field) (out : List Byte) : (g.passExit f out).attention = g.attention :=
  g.attention_writeChecked f out

@[simp] theorem Page.attention_walk (fs : List Field) : (g.walk fs).page.attention = g.attention := by
  induction fs generalizing g with
  | nil => rfl
  | cons f fs ih =>
    simp only [Page.walk]
    split
    · exact ih g
    · exact (ih _).trans (g.attention_writeChecked f _)
    · unfold Page.failWalk
      simp only
      split
      · rfl
      · exact Page.attention_selectMember _ _

@[simp] theorem Page.attention_validateSend : g.validateSend.page.attention = g.attention := by
  have first : g.validateCursorField.page.attention = g.attention := by
    unfold Page.validateCursorField
    split
    · split
      · split
        · exact g.attention_passExit _ _
        · rfl
      · rfl
    · rfl
  unfold Page.validateSend
  split
  · rename_i h
    rw [h] at first
    exact (Page.attention_walk _ _).trans first
  · exact first

@[simp] theorem Page.attention_clearGroup (f : Field) : (g.clearGroup f).attention = g.attention := g.attention_arrive _

@[simp] theorem Page.attention_leaveChain (n : Nat) : (g.leaveChain n).attention = g.attention := by
  unfold Page.leaveChain; split <;> rfl

@[simp] theorem Page.attention_dropField (n : Nat) : (g.dropField n).attention = g.attention :=
  Page.attention_leaveChain (g.unlink n) n

@[simp] theorem Page.attention_unsentReturn : g.unsentReturn.attention = g.attention := by
  unfold Page.unsentReturn; split <;> rfl

@[simp] theorem Page.attention_tick : g.tick.attention = g.attention := by
  unfold Page.tick
  split
  · split <;> rfl
  all_goals rfl

/-- R6: promotion changes the state of one page at most, and nothing else of a page. -/
theorem State.page_promote_or (s : State) (q : PageNum) :
    s.promote.page q = s.page q ∨ s.promote.page q = { s.page q with state := .active } := by
  cases active : s.active with
  | some a => exact .inl (by rw [State.promote_active active])
  | none =>
    cases ready : s.ready with
    | nil => exact .inl (by rw [State.promote_empty ready])
    | cons p rest =>
      rw [State.page_promote active ready]
      split
      · subst_vars
        exact .inr rfl
      · exact .inl rfl

theorem State.attention_promote (s : State) (q : PageNum) : (s.promote.page q).attention = (s.page q).attention := by
  rcases s.page_promote_or q with same | same <;> rw [same]

end attention

/-! ## Changes that go unheard, and reports that are made -/

namespace State.ReportLaw

variable {s t : State} {p : PageNum} {g : Page}

theorem unheard (law : s.ReportLaw) (reports : t.reports = s.reports) (stalled : t.interp.stalled = s.interp.stalled)
    (attention : ∀ q, (t.page q).attention = (s.page q).attention ∨ (t.page q).attention = .empty) : t.ReportLaw :=
  State.reportLaw_iff.2 ((State.reportLaw_iff.1 law).unheard reports stalled attention)

/-- A change outside the pages, the queue and its waiting places. -/
theorem of_pages (law : s.ReportLaw) (reports : t.reports = s.reports) (stalled : t.interp.stalled = s.interp.stalled)
    (pages : t.pages = s.pages) : t.ReportLaw :=
  law.unheard reports stalled fun q => .inl (by simp only [State.page, pages])

/-- The Key Input Unit and the Scan Unit are not heard. -/
theorem input (law : s.ReportLaw) (keys : KeyInput) (scan : ScanUnit) :
    State.ReportLaw { s with keys := keys, scan := scan } := law.of_pages rfl rfl rfl

/-- A change of one page makes no attention pending. -/
theorem setPage (law : s.ReportLaw) (attention : g.attention = (s.page p).attention ∨ g.attention = .empty) :
    (s.setPage p g).ReportLaw :=
  law.unheard rfl rfl fun q => by
    rw [State.page_setPage]
    split
    · subst_vars
      exact attention
    · exact .inl rfl

theorem updPage (law : s.ReportLaw) {f : Page → Page} (attention : (f (s.page p)).attention = (s.page p).attention) :
    (s.updPage p f).ReportLaw := law.setPage (.inl attention)

theorem setNotice (law : s.ReportLaw) (n : Option Notice) : (s.setNotice p n).ReportLaw := law.updPage rfl

theorem dropKeys (law : s.ReportLaw) : s.dropKeys.ReportLaw := law.of_pages rfl rfl rfl

theorem dropConfirm (law : s.ReportLaw) : s.dropConfirm.ReportLaw := law.of_pages rfl rfl rfl

theorem answerScan (law : s.ReportLaw) (a : ScanAnswer) : (s.answerScan a).ReportLaw := law.of_pages rfl rfl rfl

theorem refuseHeld (law : s.ReportLaw) : s.refuseHeld.ReportLaw := by
  unfold State.refuseHeld
  split
  · exact law.of_pages rfl rfl rfl
  · exact law

theorem enterHold (law : s.ReportLaw) (code : ErrorCode) : (s.enterHold p code).ReportLaw :=
  State.ReportLaw.dropKeys (law.updPage rfl)

theorem ready (law : s.ReportLaw) (ready : List PageNum) : State.ReportLaw { s with ready := ready } :=
  law.of_pages rfl rfl rfl

theorem leaveActive (law : s.ReportLaw) : s.leaveActive.ReportLaw := law.of_pages rfl rfl rfl

theorem promote (law : s.ReportLaw) : s.promote.ReportLaw :=
  law.unheard s.promote_reports (by simp) fun q => .inl (s.attention_promote q)

/-- R145: a report is queued while the queue has room. -/
theorem queueReport (law : s.ReportLaw) (room : ¬s.queueFull = true) (r : Report) : (s.queueReport r).ReportLaw := by
  rw [State.queueFull_iff, Nat.not_le] at room
  exact State.reportLaw_iff.2 ((State.reportLaw_iff.1 law).appended rfl rfl (by omega) fun _ => law.waiting room)

/-- R145: while the queue holds 8 reports, anything may wait. -/
theorem of_full (law : s.ReportLaw) (full : s.queueFull = true) (queue : t.reports.queue = s.reports.queue)
    (taken : t.reports.taken = s.reports.taken) : t.ReportLaw where
  bound := queue ▸ law.bound
  waiting few := by
    rw [State.queueFull_iff, ← queue] at full
    omega
  taken := by
    rw [queue, taken]
    simpa only [t.length_reportBytes_eq _ s] using law.taken

theorem answer (law : s.ReportLaw) (r : Report) : (s.answer r).ReportLaw := by
  unfold State.answer
  split
  · exact law.of_full ‹_› rfl rfl
  · exact law.queueReport ‹_› r

theorem raiseAttention (law : s.ReportLaw) (cause : Cause) : (s.raiseAttention p cause).ReportLaw := by
  unfold State.raiseAttention
  split
  · exact law.of_full ‹_› rfl rfl
  · exact law.queueReport ‹_› _

theorem handResult (law : s.ReportLaw) (result : List (SlotNum × EraseOutcome)) : (s.handResult result).ReportLaw := by
  unfold State.handResult
  split
  · exact law.of_full ‹_› rfl rfl
  · exact law.queueReport ‹_› _

/-! ### Sends and keys -/

theorem acceptSend (law : s.ReportLaw) (room : ¬s.queueFull = true) (id : Nat) : (s.acceptSend p id).ReportLaw := by
  have sent : (s.updPage p (·.sent)).ReportLaw := law.updPage rfl
  exact (sent.queueReport room _).leaveActive.promote

theorem send (law : s.ReportLaw) (id : Nat) : (s.send p id).ReportLaw := by
  have valid : (s.setPage p (s.page p).validateSend.page).ReportLaw := law.setPage (.inl (Page.attention_validateSend _))
  unfold State.send
  simp only
  split
  · exact valid.enterHold _
  · split
    · exact valid.setNotice _
    · exact valid.acceptSend ‹_› id

theorem parkKey (law : s.ReportLaw) : (s.parkKey p).ReportLaw := by
  unfold State.parkKey
  split
  · exact law.setNotice _
  · have parked : (s.updPage p fun g => { g with state := .ready }).ReportLaw := law.updPage rfl
    exact (parked.ready _).leaveActive.promote

theorem exitOption (law : s.ReportLaw) (f : Field) : (s.exitOption p f).ReportLaw := by
  unfold State.exitOption
  split
  · exact law
  · split
    · exact law
    · exact law.raiseAttention _
    · exact law.send 14

theorem moveCursor (law : s.ReportLaw) (position : Nat) (continuation : Bool) :
    (s.moveCursor p position continuation).ReportLaw := by
  have arrived : (s.setPage p ((s.page p).arrive position)).ReportLaw := law.setPage (.inl (by simp))
  unfold State.moveCursor
  simp only
  split
  · split
    · split
      · exact (law.setPage (.inl (by simp))).exitOption _
      · exact (law.setPage (.inl (by rfl))).enterHold _
    · exact arrived
  · exact arrived

theorem advance (law : s.ReportLaw) (f : Field) : (s.advance p f).ReportLaw := by
  unfold State.advance
  simp only
  split
  · exact law.moveCursor _ _
  · split
    · exact law.moveCursor _ _
    · split
      · exact law.moveCursor _ _
      · exact law.moveCursor _ _

theorem typeCharacter (law : s.ReportLaw) (b : Byte) : (s.typeCharacter p b).ReportLaw := by
  unfold State.typeCharacter
  simp only
  split
  · exact law.enterHold _
  · split
    · exact law.enterHold _
    · split
      · exact law.enterHold _
      · split
        · exact law.enterHold _
        · exact (law.setPage (.inl (by rfl))).advance _

theorem deleteKey (law : s.ReportLaw) : (s.deleteKey p).ReportLaw := by
  unfold State.deleteKey
  simp only
  split
  · exact law.enterHold _
  · exact law.setPage (.inl rfl)

theorem backspaceKey (law : s.ReportLaw) : (s.backspaceKey p).ReportLaw := by
  unfold State.backspaceKey
  simp only
  split
  · exact law.enterHold _
  · exact (law.moveCursor _ _).deleteKey

theorem eraseEofKey (law : s.ReportLaw) : (s.eraseEofKey p).ReportLaw := by
  unfold State.eraseEofKey
  simp only
  split
  · exact law.enterHold _
  · exact law.setPage (.inl rfl)

theorem clearFieldKey (law : s.ReportLaw) : (s.clearFieldKey p).ReportLaw := by
  unfold State.clearFieldKey
  simp only
  split
  · exact law.enterHold _
  · exact law.setPage (.inl (by simp))

theorem actKey (law : s.ReportLaw) (k : Key) : (s.actKey p k).ReportLaw := by
  cases k with
  | left | right | up | down | tab | backtab | home | newline => exact law.moveCursor _ _
  | insert => exact law.updPage (f := fun g => { g with insert := !g.insert }) rfl
  | delete => exact law.deleteKey
  | backspace => exact law.backspaceKey
  | eraseEof => exact law.eraseEofKey
  | clearField => exact law.clearFieldKey
  | reset => exact law
  | attn => exact law.raiseAttention _
  | park => exact law.parkKey
  | send id => exact law.send id
  | character b => exact law.typeCharacter b
  | unknown => exact law.setNotice _

theorem editKey (law : s.ReportLaw) (k : Key) : (s.editKey k).ReportLaw := by
  unfold State.editKey
  split
  · split
    · exact law
    · exact law.of_pages rfl rfl rfl
    · exact law.of_pages rfl rfl rfl
  · split
    · split
      · exact law.updPage rfl
      · exact law
    · exact (law.setNotice none).actKey k

/-! ### Scans -/

theorem chainAction (law : s.ReportLaw) (c : ChainId) (action : Action) : (s.chainAction p c action).ReportLaw := by
  cases action with
  | nothing => exact law
  | attn => exact law.raiseAttention _
  | send => exact law.send 13

theorem stepChain (law : s.ReportLaw) (c : ChainId) (k : Nat) : (s.stepChain p c k).ReportLaw := by
  have stepped : (s.updPage p fun g => g.updChain c (·.stepped k)).ReportLaw := law.updPage rfl
  unfold State.stepChain
  simp only
  split
  · split
    · exact (stepped.chainAction _ _).updPage (by rfl)
    · exact stepped
  · exact stepped

theorem followMove (law : s.ReportLaw) (f : Field) : (s.followMove p f).ReportLaw := by
  unfold State.followMove
  split
  · exact law.moveCursor _ _
  · exact law

theorem deposit (law : s.ReportLaw) (f : Field) (out : List Byte) : (s.deposit p f out).ReportLaw := by
  have deposited := State.ReportLaw.answerScan (law.updPage (p := p) (f := fun g =>
    { ({ g with cells := g.cells.writeRun f.start out }.updField f.number (·.deposited)) with notice := none }) rfl) .ack
  unfold State.deposit
  simp only
  split
  · exact deposited
  · split
    · exact (deposited.stepChain _ _).followMove f
    · exact deposited.stepChain _ _

theorem rejectScan (law : s.ReportLaw) : (s.rejectScan p).ReportLaw := (law.answerScan _).setNotice _

theorem awaitConfirm (law : s.ReportLaw) (f : Field) (characters : List Byte) :
    (s.awaitConfirm p f characters).ReportLaw :=
  (State.ReportLaw.answerScan (law.input s.keys _) _).setNotice _

theorem takeRead (law : s.ReportLaw) (f : Field) (confirming : Bool) (characters : List Byte) :
    (s.takeRead p f confirming characters).ReportLaw := by
  unfold State.takeRead
  split
  · exact law.rejectScan
  · split
    · exact law.awaitConfirm f characters
    · exact law.deposit f _

theorem routeByPage (law : s.ReportLaw) (characters : List Byte) : (s.routeByPage p characters).ReportLaw := by
  unfold State.routeByPage
  split
  · exact law.takeRead _ _ _
  · exact law.rejectScan

theorem routeFrame (law : s.ReportLaw) (characters : List Byte) : (s.routeFrame p characters).ReportLaw := by
  unfold State.routeFrame
  split
  · split
    · split
      · exact law.dropConfirm.takeRead _ _ _
      · exact law.dropConfirm.rejectScan
    · exact law.dropConfirm.routeByPage _
  · exact law.routeByPage _

theorem judgeFrame (law : s.ReportLaw) (length : Nat) (characters : List Byte) :
    (s.judgeFrame length characters).ReportLaw := by
  unfold State.judgeFrame
  split
  · simp only
    split
    · split
      · exact (law.answerScan _).setNotice _
      · exact law.answerScan _
    · exact law.answerScan _
  · split
    · exact law.answerScan _
    · split
      · exact law.answerScan _
      · split
        · split
          · exact law.of_pages rfl rfl rfl
          · exact law.answerScan _
        · exact law.routeFrame _

/-! ### The input port and held input -/

theorem queueKey (law : s.ReportLaw) (code : Byte) : (s.queueKey p code).ReportLaw := by
  unfold State.queueKey
  split
  · exact law.setNotice _
  · split
    · exact law.of_pages rfl rfl rfl
    · exact law.setNotice _

theorem takeKey (law : s.ReportLaw) (code : Byte) : (s.takeKey code).ReportLaw := by
  unfold State.takeKey
  split
  · exact law.editKey _
  · split
    · split
      · exact law.dropKeys.editKey _
      · exact law.editKey _
      · split
        · exact law.editKey _
        · exact law.queueKey _
    · exact law.editKey _

theorem takeInputByte (law : s.ReportLaw) (b : Byte) : (s.takeInputByte b).ReportLaw := by
  unfold State.takeInputByte
  split
  · split
    · exact law.of_pages rfl rfl rfl
    · exact law.takeKey b
  · split
    · exact State.ReportLaw.judgeFrame (law.input _ _) _ _
    · exact law.of_pages rfl rfl rfl
  · simp only
    split
    · exact State.ReportLaw.judgeFrame (law.input _ _) _ _
    · exact law.of_pages rfl rfl rfl

theorem takeInput (law : s.ReportLaw) (codes : List Byte) : (s.takeInput codes).ReportLaw := by
  unfold State.takeInput
  induction codes generalizing s with
  | nil => exact law
  | cons b bs ih => exact ih (law.takeInputByte b)

theorem releaseKeys (law : s.ReportLaw) (n : Nat) : (State.releaseKeys n s).ReportLaw := by
  induction n generalizing s with
  | zero => exact law
  | succ n ih =>
    unfold State.releaseKeys
    split
    · exact law
    · exact ih (State.ReportLaw.editKey (law.input _ _) _)

theorem releaseInput (law : s.ReportLaw) : s.releaseInput.ReportLaw := by
  refine State.ReportLaw.releaseKeys ?_ _
  unfold State.releaseScan
  split
  · exact State.ReportLaw.routeFrame (law.input _ _) _
  · exact law

end State.ReportLaw

end Sys2Proof.Machine

namespace Sys2Proof.Machine

namespace State.ReportLaw

variable {s u : State} {p : PageNum} {t : Transaction}

/-! ### Orders -/

theorem updTxn (law : s.ReportLaw) (f : Transaction → Transaction) : (s.updTxn f).ReportLaw := law.of_pages rfl rfl rfl

theorem updSlot (law : s.ReportLaw) (n : SlotNum) (f : Slot → Slot) : (s.updSlot n f).ReportLaw :=
  law.of_pages rfl rfl rfl

theorem done (law : s.ReportLaw) : (OrderOutcome.done s).state.ReportLaw := law

theorem writeText (law : s.ReportLaw) (kind : Kind) (writePos : Nat) (codes : List Byte) :
    (s.writeText kind p writePos codes).state.ReportLaw := by
  unfold State.writeText
  simp only
  split
  · exact law.updTxn _
  · exact State.ReportLaw.updTxn (law.updPage rfl) _

theorem dropConfirmAt (law : s.ReportLaw) (dropped : Nat → Bool) : (s.dropConfirmAt p dropped).ReportLaw := by
  unfold State.dropConfirmAt
  split
  · split
    · exact law.dropConfirm
    · exact law
  · exact law

theorem orderDefine (law : s.ReportLaw) (writePos : Nat) (d : DefineOperands) :
    (s.orderDefine p writePos d).state.ReportLaw := by
  unfold State.orderDefine
  split
  · exact law
  · split
    · exact law
    · split
      · exact law
      · exact .done (law.updPage rfl)

theorem orderDrop (law : s.ReportLaw) (operand : Byte) : (s.orderDrop p operand).state.ReportLaw := by
  unfold State.orderDrop
  split
  · have dropped : (s.updPage p (·.dropAll)).ReportLaw := law.updPage rfl
    exact .done (dropped.dropConfirmAt _)
  · simp only
    split
    · exact law
    · have dropped : (s.updPage p (·.dropField (fieldOfByte operand))).ReportLaw :=
        law.updPage (Page.attention_dropField _ _)
      exact .done (dropped.dropConfirmAt _)

theorem orderMark (law : s.ReportLaw) (operand code : Byte) : (s.orderMark p operand code).state.ReportLaw := by
  unfold State.orderMark
  split
  · exact law
  · split
    · split
      · exact .done (law.updPage rfl)
      · exact law
    · exact law

theorem orderUnmodify (law : s.ReportLaw) (operand : Byte) : (s.orderUnmodify p operand).state.ReportLaw := by
  unfold State.orderUnmodify
  split
  · exact .done (law.updPage rfl)
  · split
    · exact .done (law.updPage rfl)
    · exact law

theorem orderChain (law : s.ReportLaw) (operands : List Byte) : (s.orderChain p operands).state.ReportLaw := by
  unfold State.orderChain
  split
  · exact law
  · simp only
    split
    · exact .done (law.updPage rfl)
    · exact law

theorem orderUnchain (law : s.ReportLaw) (operand : Byte) : (s.orderUnchain p operand).state.ReportLaw := by
  unfold State.orderUnchain
  split
  · exact law
  · split
    · exact law
    · exact .done (law.updPage rfl)

theorem orderSelect (law : s.ReportLaw) (operand : Byte) : (s.orderSelect p operand).state.ReportLaw := by
  unfold State.orderSelect
  split
  · exact .done (law.updPage rfl)
  · split
    · exact law
    · split
      · exact law
      · exact .done (law.updPage rfl)

theorem pageOrder (law : s.ReportLaw) (kind : Kind) (writePos : Nat) (o : OrderCode) (operands : List Byte) :
    (s.pageOrder kind p writePos o operands).state.ReportLaw := by
  cases o with
  | setpos =>
    unfold State.pageOrder
    simp only
    split
    · exact law.updTxn _
    · exact law
  | text => exact law.writeText _ _ _
  | repeatChar | clear =>
    unfold State.pageOrder
    simp only
    split
    · exact law.writeText _ _ _
    · exact law
  | define => exact law.orderDefine _ _
  | drop => exact law.orderDrop _
  | cursor =>
    unfold State.pageOrder
    simp only
    split
    · exact .done (law.updPage rfl)
    · exact law
  | message => exact .done (law.updPage rfl)
  | mark => exact law.orderMark _ _
  | unmodify => exact law.orderUnmodify _
  | chain => exact law.orderChain _
  | unchain => exact law.orderUnchain _
  | select => exact law.orderSelect _
  | _ => exact law

theorem replay (law : s.ReportLaw) (orders : List (List Byte)) : (State.replay p s orders).state.ReportLaw := by
  induction orders generalizing s with
  | nil => exact law
  | cons order rest ih =>
    cases order with
    | nil => exact ih law
    | cons code operands =>
      unfold State.replay
      split
      · rename_i o t _ _
        have one := law.pageOrder (p := p) .load t.writePos o operands
        split
        · rename_i done
          exact ih (by rwa [done] at one)
        · rename_i skipped
          rw [skipped] at one
          exact ih (one.updTxn _)
        · rename_i failed
          rwa [failed] at one
      · exact ih law

/-- R124: an order that is carried out or recorded. -/
theorem carryOut (law : s.ReportLaw) (t : Transaction) (o : OrderCode) (operands : List Byte) :
    (s.carryOut t o operands).state.ReportLaw := by
  unfold State.carryOut
  split
  · split
    · unfold State.recordOrder
      split
      · exact law
      · simp only
        split
        · exact law
        · exact .done (law.updSlot _ _)
    · exact law
  · split
    · unfold State.orderRecall
      split
      · exact law
      · split
        · exact law
        · exact law.replay _
        · exact law
    · exact law.pageOrder _ _ _ _
  · exact law

/-! ### Headers -/

/-- The interpreter's state and record are not heard. -/
theorem interp (law : s.ReportLaw) (i : InterpState) (r : Option Transaction) :
    State.ReportLaw { s with interp.state := i, interp.txn := r } := law.of_pages rfl rfl rfl

theorem refuse (law : s.ReportLaw) (t : Transaction) (status : Status) (detail : Nat) :
    (s.refuse t status detail).ReportLaw := (law.answer _).interp _ _

theorem accept (law : s.ReportLaw) (t : Transaction) : (s.accept t).ReportLaw := law.interp _ _

end State.ReportLaw

/-- The Template Store and the erase unit alone have changed. -/
def State.StoreOnly (s t : State) : Prop := ∃ store, t = { s with store := store }

theorem State.StoreOnly.refl (s : State) : s.StoreOnly s := ⟨s.store, rfl⟩

theorem State.StoreOnly.trans {s t u : State} (a : s.StoreOnly t) (b : t.StoreOnly u) : s.StoreOnly u := by
  obtain ⟨x, rfl⟩ := a
  obtain ⟨y, rfl⟩ := b
  exact ⟨y, rfl⟩

theorem State.ReportLaw.storeOnly {s t : State} (law : s.ReportLaw) (a : s.StoreOnly t) : t.ReportLaw := by
  obtain ⟨store, rfl⟩ := a
  exact law.of_pages rfl rfl rfl

section headers

variable (s : State)

theorem State.storeOnly_eraseSlots (slots : List SlotNum) : s.StoreOnly (State.eraseSlots s slots).1 := by
  induction slots generalizing s with
  | nil => exact .refl s
  | cons n ns ih =>
    refine .trans (t := (s.eraseSlot n).1) ?_ (ih _)
    unfold State.eraseSlot
    split
    · exact .refl s
    · split
      · exact .refl s
      · split
        · exact .refl s
        · exact ⟨_, rfl⟩

theorem State.storeOnly_acceptErase (slots : List Byte) : s.StoreOnly (s.acceptErase slots).1 := by
  refine (s.storeOnly_eraseSlots (slots.filterMap slotOfByte)).trans ?_
  unfold State.acceptErase State.gather
  simp only
  split
  · exact ⟨_, rfl⟩
  · exact ⟨_, rfl⟩
  all_goals exact .refl _

variable {s} in
theorem State.storeOnly_pauseUnit {u : State} (h : s.pauseUnit = some u) : s.StoreOnly u := by
  unfold State.pauseUnit at h
  split at h <;> cases h <;> exact ⟨_, rfl⟩

variable {s} in
theorem State.storeOnly_resumeUnit {u : State} (h : s.resumeUnit = some u) : s.StoreOnly u := by
  unfold State.resumeUnit at h
  split at h
  · split at h <;> cases h <;> exact ⟨_, rfl⟩
  all_goals cases h

end headers

namespace State.ReportLaw

variable {s u : State} {p : PageNum}

/-- R123: a header that is judged is refused with a report, or accepted. -/
theorem judgeHeader (law : s.ReportLaw) (t : Transaction) : (s.judgeHeader t).ReportLaw := by
  unfold State.judgeHeader
  simp only
  split
  · exact law.refuse t _ _
  · rename_i k _
    cases k with
    | load | amend | post | reopen | close =>
      simp only
      split
      · exact law.refuse t _ _
      · split
        · exact law.refuse t _ _
        · exact (law.accept t).updPage rfl
    | restart | setup | query => exact law.accept t
    | store =>
      simp only
      split
      · exact law.refuse t _ _
      · exact (law.updSlot _ _).accept t
      · exact law.refuse t _ _
    | erase =>
      simp only
      split
      · exact law.refuse t _ _
      · split
        · exact law.refuse t _ _
        · have erased := law.storeOnly (s.storeOnly_acceptErase (t.operands.drop 1))
          split
          · exact erased.accept _
          · exact erased.accept _
    | pause =>
      simp only
      split
      · exact law.refuse t _ _
      · exact (law.storeOnly (State.storeOnly_pauseUnit ‹_›)).accept t
    | resume =>
      simp only
      split
      · exact law.refuse t _ _
      · exact (law.storeOnly (State.storeOnly_resumeUnit ‹_›)).accept t

/-! ### Ends of transactions -/

theorem closed (law : s.ReportLaw) (t : Transaction) (next : InterpState) : (s.closed t next).ReportLaw := by
  have off := law.interp next none
  unfold State.closed State.clearMark
  split
  · exact off.updPage rfl
  · exact off

theorem closeTransaction (law : s.ReportLaw) (t : Transaction) (next : InterpState) :
    (s.closeTransaction t next).ReportLaw := by
  rw [State.closeTransaction_closed]
  split
  · exact (law.closed t next).releaseInput
  · exact law.closed t next

/-- R2: release empties the pending set. -/
theorem released (law : s.ReportLaw) : (s.updPage p (·.released)).ReportLaw := law.setPage (.inr rfl)

theorem abortEffects (law : s.ReportLaw) (t : Transaction) : (s.abortEffects t).ReportLaw := by
  unfold State.abortEffects
  split
  · exact law.released
  · split
    · exact law.updSlot _ _
    · exact law
  · exact law

theorem abort (law : s.ReportLaw) (t : Transaction) (status : Status) (detail : Nat) (next : InterpState) :
    (s.abort t status detail next).ReportLaw :=
  ((law.abortEffects t).answer _).closeTransaction t next

theorem returnToHead (law : s.ReportLaw) {f : Page → Page} (attention : ∀ g, (f g).attention = g.attention) :
    (s.returnToHead p f).ReportLaw := by
  have returned := law.updPage (p := p) (f := fun g => f { g with state := .ready, timer := .absent }) (attention _)
  exact (returned.ready _).promote

theorem loadEnd (law : s.ReportLaw) : (s.loadEnd p).ReportLaw := by
  have readied := law.updPage (p := p) (f := fun g => { g with state := .ready }) rfl
  exact (readied.ready _).promote

end State.ReportLaw

/-- R15: RESTART leaves an empty queue, and nothing waits unless a report is stalled; during a stall no RESTART ends (R130). -/
theorem State.reportLaw_restartEnd {s : State} (free : s.interp.stalled = none) : s.restartEnd.ReportLaw where
  bound := by simp [s.restartEnd_queue]
  waiting _ := ⟨by simpa using free, by simp [State.restartEnd, State.clearReports], fun q => by simp [Page.blank]⟩
  taken := by
    rw [s.restartEnd_queue]
    simp [State.restartEnd, State.clearReports]

namespace State.ReportLaw

variable {s u : State} {p : PageNum}

theorem endEffects (law : s.ReportLaw) (free : s.interp.stalled = none) (t : Transaction) :
    (s.endEffects t).ReportLaw := by
  unfold State.endEffects
  simp only
  split
  · exact law.loadEnd
  · exact law.returnToHead fun _ => rfl
  · exact law.released
  · exact law.of_pages rfl rfl rfl
  · exact State.reportLaw_restartEnd free
  · split
    · exact law.updSlot _ _
    · exact law
  · exact law

theorem reachEnd (law : s.ReportLaw) (free : s.interp.stalled = none) (t : Transaction) : (s.reachEnd t).ReportLaw :=
  ((law.endEffects free t).answer _).closeTransaction t .between

/-! ### The stream port -/

theorem settleOrder {o : OrderOutcome} (law : o.state.ReportLaw) (t : Transaction) :
    (State.settleOrder t o).ReportLaw := by
  cases o with
  | done v => exact State.ReportLaw.updTxn law _
  | skipped v => exact (State.ReportLaw.updTxn law _).updTxn _
  | failed status v => exact State.ReportLaw.abort law _ _ _ _

theorem takeOrderCode (law : s.ReportLaw) (free : s.interp.stalled = none) (t : Transaction) (b : Byte) :
    (s.takeOrderCode t b).ReportLaw := by
  unfold State.takeOrderCode
  split
  · exact law.reachEnd free t
  · split
    · exact (law.abort t _ _ _).interp _ _
    · simp only
      split
      · split
        · exact law.of_pages rfl rfl rfl
        · exact law.abort _ _ _ _
      · exact law.abort _ _ _ _

theorem takeOperand (law : s.ReportLaw) (t : Transaction) (b : Byte) : (s.takeOperand t b).ReportLaw := by
  unfold State.takeOperand
  simp only
  split
  · exact law
  · split
    · exact law.of_pages rfl rfl rfl
    · exact law.abort _ _ _ _
    · exact (State.ReportLaw.carryOut (law.interp s.interp.state _) _ _ _).settleOrder _

/-- R121 to R128: a byte that the interpreter takes, which it does only outside a stall (R130). -/
theorem interpretByte (law : s.ReportLaw) (free : s.interp.stalled = none) (b : Byte) :
    (s.interpretByte b).ReportLaw := by
  unfold State.interpretByte
  split
  case h_1 =>
    split
    · exact law.interp _ _
    · exact law
  case h_2 =>
    split
    · exact law.of_pages rfl rfl rfl
    · split
      · exact law.interp _ _
      · exact law
  case h_3 t _ _ =>
    unfold State.takeHeaderByte
    simp only
    split
    · exact law.judgeHeader _
    · exact law.of_pages rfl rfl rfl
  case h_4 t _ _ =>
    split
    · exact law.takeOrderCode free t b
    · exact law.takeOperand t b
  case h_5 => exact law
  case h_6 => exact law

theorem takeStream (law : s.ReportLaw) (bytes : List Byte) : (s.takeStream bytes).ReportLaw := by
  induction bytes generalizing s with
  | nil => exact law
  | cons b bs ih =>
    rw [State.takeStream_cons]
    unfold State.takeStreamByte
    split
    · exact ih law
    · rename_i free
      exact ih (law.interpretByte (by simpa using free) b)

/-! ### The erase unit -/

theorem endRun (law : s.ReportLaw) : s.endRun.ReportLaw := State.ReportLaw.handResult (law.storeOnly ⟨_, rfl⟩) _

theorem nextSlot (law : s.ReportLaw) : s.nextSlot.ReportLaw := by
  unfold State.nextSlot
  split
  · exact law.storeOnly ⟨_, rfl⟩
  · exact law.endRun

theorem restUnit (law : s.ReportLaw) : s.restUnit.ReportLaw := by
  unfold State.restUnit
  split
  · exact law.storeOnly ⟨_, rfl⟩
  · exact law.endRun

theorem endAttempt (law : s.ReportLaw) (ending : Sys2Proof.Ending) : (s.endAttempt ending).ReportLaw := by
  have passed (n : SlotNum) : (s.passSlot n).ReportLaw := law.storeOnly ⟨_, rfl⟩
  have givenUp (n : SlotNum) : (s.giveUpSlot n).ReportLaw := law.storeOnly ⟨_, rfl⟩
  have held (n : SlotNum) (attempts : Nat) : (s.holdSlot n attempts).ReportLaw := law.storeOnly ⟨_, rfl⟩
  unfold State.endAttempt
  split
  · exact law
  · simp only
    split
    · exact (passed _).nextSlot
    · split
      · exact law.storeOnly ⟨_, rfl⟩
      · exact (givenUp _).nextSlot
    · exact held _ _
    · exact (passed _).restUnit
    · split
      · exact held _ _
      · exact (givenUp _).restUnit
    all_goals exact law

theorem endGathering (law : s.ReportLaw) : s.endGathering.ReportLaw := by
  unfold State.endGathering
  split
  · exact law.storeOnly ⟨_, rfl⟩
  · exact law

/-! ### Expiries and the passing of time -/

theorem expireReply (law : s.ReportLaw) (p : PageNum) : (s.expireReply p).ReportLaw := by
  unfold State.expireReply
  split
  · exact law.returnToHead fun _ => rfl
  · exact law

theorem expireConfirm (law : s.ReportLaw) : s.expireConfirm.ReportLaw := by
  unfold State.expireConfirm
  split
  · exact law
  · simp only
    split
    · exact law.dropConfirm.setNotice _
    · exact law.dropConfirm

theorem expire (law : s.ReportLaw) (d : Due) : (s.expire d).ReportLaw := by
  cases d with
  | reply p => exact law.expireReply p
  | confirm => exact law.expireConfirm
  | gathering => exact law.endGathering

theorem tick (law : s.ReportLaw) : s.tick.ReportLaw := by
  refine law.unheard ?_ ?_ fun q => .inl (by rw [State.page_tick, Page.attention_tick])
  all_goals rw [s.tick_frame]

/-- With no command waiting a step is an expiry or one ms that passes (log entry 6). -/
theorem idle (law : s.ReportLaw) : s.idle.ReportLaw := by
  unfold State.idle
  split
  · exact law.tick
  · exact law.expire _
  · have counted : State.ReportLaw { s with choices := s.choices + 1 } := law.of_pages rfl rfl rfl
    exact counted.expire _

end State.ReportLaw

/-! ## Entries that are freed -/

section freed

variable {s : State}

/-- R146: the last byte of a report frees its entry. -/
theorem State.ReportLaw.leave (law : s.ReportLaw) {r : Report} {rest : List Report} (queue : s.reports.queue = r :: rest)
    (outputs : PortOutputs) :
    State.Freed 1 { s with reports.queue := rest, reports.taken := 0, outputs := outputs } where
  bound := by simpa [queue] using law.bound
  waiting few := law.waiting (by simpa [queue] using few)
  taken := by
    cases rest with
    | nil => rfl
    | cons x xs =>
      simp only [State.length_reportBytes]
      omega

theorem State.ReportLaw.takeReportByte (law : s.ReportLaw) : s.takeReportByte.ReportLaw := by
  unfold State.takeReportByte
  split
  · exact ⟨law.bound, law.waiting, law.taken⟩
  · split
    · exact law.of_pages rfl rfl rfl
    · rename_i r rest queue
      simp only
      split
      · rename_i more
        exact ⟨law.bound, law.waiting, by simpa only [queue, State.length_reportBytes_eq s r] using more⟩
      · refine State.reportLaw_iff.2 (State.Freed.handFreed ?_)
        have left := law.leave queue { s.outputs with stream := (s.reportBytes r)[s.reports.taken]? }
        cases r with
        | entry e =>
          refine left.unheard rfl rfl fun q => .inl ?_
          simp only [State.reportLeft, State.awaitReply, State.page_updPage]
          split
          · subst_vars
            rfl
          · rfl
        | attention | completion | status | eraseDone | start => exact left

/-- R157 step 2: a stream reset frees the eight entries, and no report is stalled. -/
theorem State.freed_emptyReports (s : State) : s.emptyReports.Freed 8 where
  bound := by simp [State.emptyReports]
  waiting few := by simp [State.emptyReports] at few
  taken := rfl

theorem State.Freed.returnSending {n : Nat} (h : s.Freed n) : s.returnSending.Freed n := by
  obtain ⟨pages, frame, page⟩ := s.returnSending_eq
  rw [frame]
  have returned : State.Freed n { s with pages := pages, ready := s.sendingPages ++ s.ready } :=
    h.unheard rfl rfl fun q => .inl (by rw [← (s.page q).attention_unsentReturn, ← page q]; rfl)
  exact returned.unheard (State.promote_reports _) (by simp) fun q => .inl (State.attention_promote _ q)

/-- R157: a stream reset. -/
theorem State.reportLaw_streamReset (s : State) : s.streamEmptied.endCutShort.ReportLaw := by
  have emptied : s.streamEmptied.ReportLaw := s.cutShort.freed_emptyReports.returnSending.handFreedTimes
  unfold State.endCutShort
  split
  · exact emptied.closeTransaction _ _
  · exact emptied.interp _ _

/-! ## Every step -/

theorem State.reportLaw_lineReset (s : State) : s.lineReset.ReportLaw :=
  State.reportLaw_reset.unheard rfl rfl fun q => .inl (by rw [s.lineReset_page, State.reset_page])

/-- Whatever a command does, it keeps the law of the Report Unit. -/
theorem State.ReportLaw.exec {c : Instr} {t : State} (law : s.ReportLaw) (run : exec c s = .next t) : t.ReportLaw := by
  by_cases stream : onStreamPort c = true
  · obtain ⟨bytes, e⟩ := exec_of_onStreamPort stream s
    cases e.symm.trans run
    exact law.takeStream bytes
  · cases key : keyCode c with
    | some b =>
      cases (exec_of_keyCode key s).symm.trans run
      exact law.takeInput [b]
    | none =>
      cases c with
      | resetLine => cases run; exact s.reportLaw_lineReset
      | streamReset => cases run; exact s.reportLaw_streamReset
      | reportByteTaken => cases run; exact law.takeReportByte
      | scanFrame length characters => cases run; exact law.takeInput _
      | scanAnswerByteTaken =>
        cases run
        unfold State.takeAnswerByte
        split <;> exact law.of_pages rfl rfl rfl
      | rowRequest row => cases run; exact law.of_pages rfl rfl rfl
      | cursorRequest => cases run; exact law.of_pages rfl rfl rfl
      | replyTimerExpiry p => cases run; exact law.expireReply p
      | confirmWindowExpiry => cases run; exact law.expireConfirm
      | gatheringWindowExpiry => cases run; exact law.endGathering
      | attemptEnd ending => cases run; exact law.endAttempt ending
      | attemptStopped ending => cases run; exact law.endAttempt ending
      | _ => simp [onStreamPort, keyCode] at stream key

end freed

/-- Settles O5: a step makes reports into free entries or waiting places, or hands out the entries that it frees. -/
theorem stepKeepsReportLaw : Obligations.StepKeepsReportLaw := by
  intro s t law run
  unfold step at run
  split at run
  · cases run
    exact law.idle
  · rename_i rest _
    have taken : State.ReportLaw { s with pending := rest } := law.of_pages rfl rfl rfl
    exact taken.exec run

end Sys2Proof.Machine

/-! # The bytes of a report as they are taken -/

namespace Sys2Proof.Machine

/-- Settles O40: padding before any report, a byte of the head report, and its last byte as O41 has it. -/
theorem reportBytesAreTakenInOrder : Obligations.ReportBytesAreTakenInOrder := by
  intro s
  refine ⟨fun n owed => ?_, fun padding queue => ?_, fun r rest padding queue => ⟨fun b byte more => ?_,
    fun last waits other => ?_⟩⟩
  · refine congrArg Host.Outcome.next ?_
    simp [State.takeReportByte, owed]
  · refine congrArg Host.Outcome.next ?_
    simp [State.takeReportByte, padding, queue]
  · refine congrArg Host.Outcome.next ?_
    simp [State.takeReportByte, padding, queue, byte, more]
  · exact (lastReportByteFreesTheEntry s s r rest padding queue last (.inr ⟨other, rfl⟩)).1 waits

end Sys2Proof.Machine

/-! # The layouts of the reports

A report is a chain of blocks. A block is found by the lengths of the blocks before it (11.3). -/

namespace Sys2Proof.Machine

/-! ## Blocks -/

/-- The block stands in the bytes from a place on. -/
def StandsAt (block : List Byte) (place : Nat) (bytes : List Byte) : Prop :=
  ∃ front back, bytes = front ++ (block ++ back) ∧ front.length = place

namespace StandsAt

variable {block bytes : List Byte} {place : Nat}

theorem self (block : List Byte) : StandsAt block 0 block := ⟨[], [], by simp, rfl⟩

theorem append_right (h : StandsAt block place bytes) (more : List Byte) : StandsAt block place (bytes ++ more) := by
  obtain ⟨front, back, rfl, at_⟩ := h
  exact ⟨front, back ++ more, by simp, at_⟩

theorem append_left (h : StandsAt block place bytes) (before : List Byte) :
    StandsAt block (before.length + place) (before ++ bytes) := by
  obtain ⟨front, back, rfl, rfl⟩ := h
  exact ⟨before ++ front, back, by simp, by simp⟩

/-- The block is cut out at its place with its length. -/
theorem take_drop (h : StandsAt block place bytes) {n : Nat} (length : block.length = n) :
    (bytes.drop place).take n = block := by
  obtain ⟨front, back, rfl, rfl⟩ := h
  rw [List.drop_left, ← length, List.take_left]

theorem getElem? (h : StandsAt block place bytes) {i : Nat} (inside : i < block.length) :
    bytes[place + i]? = block[i]? := by
  obtain ⟨front, back, rfl, rfl⟩ := h
  rw [List.getElem?_append_right (Nat.le_add_right _ _), Nat.add_sub_cancel_left, List.getElem?_append_left inside]

variable {α : Type} {f : α → List Byte} {l : List α} {i : Nat} {a : α}

/-- The block of an item stands behind the blocks of the items before it. -/
theorem flatMap (h : l[i]? = some a) : StandsAt (f a) ((l.take i).map fun x => (f x).length).sum (l.flatMap f) := by
  obtain ⟨below, rfl⟩ := List.getElem?_eq_some_iff.1 h
  refine ⟨(l.take i).flatMap f, (l.drop (i + 1)).flatMap f, ?_, List.length_flatMap⟩
  conv_lhs => rw [← List.take_append_drop i l, List.drop_eq_getElem_cons below]
  simp only [List.flatMap_append, List.flatMap_cons]

theorem flatMap_of_length {n : Nat} (h : l[i]? = some a) (length : ∀ x ∈ l, (f x).length = n) :
    StandsAt (f a) (n * i) (l.flatMap f) := by
  have before : ((l.take i).map fun x => (f x).length).sum = n * i := by
    obtain ⟨below, -⟩ := List.getElem?_eq_some_iff.1 h
    rw [← List.length_flatMap, length_flatMap_of_length_eq fun x hx => length x (List.mem_of_mem_take hx),
      List.length_take_of_le below.le, Nat.mul_comm]
  exact before ▸ flatMap h

end StandsAt

/-! ## The six kinds -/

section kinds

variable (s : State)

/-- A number below 256 has the high byte 00h. -/
theorem twoBytes_of_lt {n : Nat} (h : n < 256) : twoBytes n = [0x00#8, byteOf n] := by
  rw [twoBytes, Nat.div_eq_of_lt h]
  rfl

theorem State.reportBytes_completion (tag : Byte) (status : Status) (detail : Nat) :
    s.reportBytes (.completion tag status detail) = [0x43#8, 0x00#8, 0x03#8, tag, status.code, byteOf detail] := by
  simp only [State.reportBytes, State.reportBody, Report.kindByte, List.length_cons, List.length_nil]
  rfl

/-- R146, R150: an attention report, its cause and detail as the cause has them. -/
theorem State.reportBytes_attention (p : PageNum) (cause : Cause) (serial : Byte) :
    s.reportBytes (.attention p cause serial) = [0x41#8, 0x00#8, 0x04#8, byteOf p.val] ++ cause.codes ++ [serial] := by
  have length : cause.codes.length = 2 := by cases cause <;> rfl
  simp only [State.reportBytes, State.reportBody, Report.kindByte, List.length_append, List.length_cons,
    List.length_nil, length]
  rfl

/-- R146, R154: an ERASE-DONE report: the number of pairs, then the pairs. -/
theorem State.reportBytes_eraseDone {pairs : List (SlotNum × EraseOutcome)} (few : pairs.length ≤ 24) :
    s.reportBytes (.eraseDone pairs) = [0x44#8, 0x00#8, byteOf (1 + 2 * pairs.length), byteOf pairs.length] ++
      pairs.flatMap fun q => [byteOf q.1.val, q.2.code] := by
  have length := length_flatMap_of_length_eq (l := pairs) (n := 2)
    (f := fun q => [byteOf q.1.val, q.2.code]) fun _ _ => rfl
  simp only [State.reportBytes, State.reportBody, Report.kindByte, List.length_cons, length]
  rw [twoBytes_of_lt (by omega), Nat.mul_comm, Nat.add_comm]
  rfl

theorem EraseOutcome.code_eq (o : EraseOutcome) : o.code = if o = .blank then 0x00#8 else 0x01#8 := by
  cases o <;> rfl

/-- R146, R147: an entry report: its nine first bytes, then its fields. -/
theorem State.reportBytes_entry (e : EntryReport) :
    s.reportBytes (.entry e) = [0x45#8, byteOf ((6 + (e.fields.map fun f => 2 + f.length).sum) / 256),
      byteOf (6 + (e.fields.map fun f => 2 + f.length).sum), byteOf e.page.val, e.serial, byteOf e.sendKey,
      byteOf e.row, byteOf e.column, byteOf e.fields.length] ++
        e.fields.flatMap (·.bytes (s.page e.page).cells) := by
  simp only [State.reportBytes, State.reportBody, EntryReport.length_body]
  rfl

/-- R147, R148: a field stands in an entry report behind the fields before it. -/
theorem State.standsAt_sentField {e : EntryReport} {i : Nat} {f : SentField} (h : e.fields[i]? = some f) :
    StandsAt (f.bytes (s.page e.page).cells) (9 + ((e.fields.take i).map fun f => 2 + f.length).sum)
      (s.reportBytes (.entry e)) := by
  have block := StandsAt.flatMap (f := fun f => f.bytes (s.page e.page).cells) h
  simp only [SentField.length_bytes] at block
  rw [State.reportBytes_entry]
  exact block.append_left _

theorem Cells.getElem?_readRun (m : Cells) {start length i : Nat} (h : i < length) :
    (m.readRun start length)[i]? = some (m.read (start + i)) := by
  rw [Cells.readRun_eq, List.getElem?_map, List.getElem?_range h]
  rfl

/-- A page's block of a STATUS report (R153). -/
def PageStatus.bytes (g : PageStatus) : List Byte :=
  [g.state.code, byteOf g.fieldCount, g.serial, markByte g.overdue, markByte g.unsent]

/-- A slot's block of a STATUS report (R153). -/
def SlotStatus.bytes (slot : SlotStatus) : List Byte := slot.state.code :: twoBytes slot.used ++ slot.label

/-- The block of a STATUS report between the ready queue and the slots (R153). -/
def StatusReport.unitBytes (r : StatusReport) : List Byte :=
  [match r.active with | some p => byteOf p.val | none => 0xFF#8, byteOf (r.freeRecords / 256), byteOf r.freeRecords,
    byteOf r.reports, r.unit.code]

/-- R146, R153: a STATUS report, block by block. -/
theorem State.reportBytes_status (r : StatusReport) :
    s.reportBytes (.status r) = [0x53#8, byteOf (r.body.length / 256), byteOf r.body.length] ++
      (r.pages.flatMap PageStatus.bytes ++ ([byteOf r.ready.length] ++ (r.ready.map (fun p => byteOf p.val) ++
        (r.unitBytes ++ r.slots.flatMap SlotStatus.bytes)))) := by
  simp only [State.reportBytes, State.reportBody, Report.kindByte, twoBytes, StatusReport.body, StatusReport.unitBytes,
    List.append_assoc, List.cons_append, List.nil_append]
  rfl

section status

variable {s} {r : StatusReport} (pages : r.pages.length = 6)

include pages

/-- R153: the six pages take 30 bytes behind the first three. -/
theorem StatusReport.length_pageBytes : (r.pages.flatMap PageStatus.bytes).length = 30 := by
  rw [length_flatMap_of_length_eq (n := 5) fun _ _ => rfl, pages]

omit pages in
theorem State.standsAt_pageStatus {i : Nat} {g : PageStatus} (h : r.pages[i]? = some g) :
    StandsAt g.bytes (3 + 5 * i) (s.reportBytes (.status r)) := by
  rw [State.reportBytes_status]
  have block := StandsAt.flatMap_of_length (f := PageStatus.bytes) (n := 5) h fun _ _ => rfl
  exact (block.append_right _).append_left _

/-- What stands behind the pages stands from byte 33 on. -/
theorem State.standsAt_behind_pages {block : List Byte} {place : Nat}
    (h : StandsAt block place ([byteOf r.ready.length] ++ (r.ready.map (fun p => byteOf p.val) ++
      (r.unitBytes ++ r.slots.flatMap SlotStatus.bytes)))) :
    StandsAt block (33 + place) (s.reportBytes (.status r)) := by
  have behind := (h.append_left (r.pages.flatMap PageStatus.bytes)).append_left
    [0x53#8, byteOf (r.body.length / 256), byteOf r.body.length]
  rw [StatusReport.length_pageBytes pages, ← Nat.add_assoc] at behind
  rwa [State.reportBytes_status]

theorem State.standsAt_readyCount : StandsAt [byteOf r.ready.length] 33 (s.reportBytes (.status r)) :=
  State.standsAt_behind_pages pages ((StandsAt.self _).append_right _)

theorem State.standsAt_ready : StandsAt (r.ready.map fun p => byteOf p.val) 34 (s.reportBytes (.status r)) :=
  State.standsAt_behind_pages pages (((StandsAt.self _).append_right _).append_left [byteOf r.ready.length])

/-- What stands behind the ready queue. -/
theorem State.standsAt_behind_ready {block : List Byte} {place : Nat}
    (h : StandsAt block place (r.unitBytes ++ r.slots.flatMap SlotStatus.bytes)) :
    StandsAt block (34 + r.ready.length + place) (s.reportBytes (.status r)) := by
  have behind := (h.append_left (r.ready.map fun p => byteOf p.val)).append_left [byteOf r.ready.length]
  rw [List.length_map, List.length_singleton] at behind
  have stands := State.standsAt_behind_pages (s := s) pages behind
  rwa [show 33 + (1 + (r.ready.length + place)) = 34 + r.ready.length + place by omega] at stands

theorem State.standsAt_unit : StandsAt r.unitBytes (34 + r.ready.length) (s.reportBytes (.status r)) :=
  State.standsAt_behind_ready pages ((StandsAt.self _).append_right _)

theorem State.standsAt_slotStatus (labels : ∀ x ∈ r.slots, x.label.length = 8) {i : Nat} {x : SlotStatus}
    (h : r.slots[i]? = some x) : StandsAt x.bytes (39 + r.ready.length + 11 * i) (s.reportBytes (.status r)) := by
  have block := StandsAt.flatMap_of_length (f := SlotStatus.bytes) (n := 11) h fun y there => by
    simp [SlotStatus.bytes, length_twoBytes, labels y there]
  have stands := State.standsAt_behind_ready (s := s) pages (block.append_left r.unitBytes)
  rwa [show 34 + r.ready.length + (r.unitBytes.length + 11 * i) = 39 + r.ready.length + 11 * i by
    simp only [StatusReport.unitBytes, List.length_cons, List.length_nil]; omega] at stands

end status

end kinds

/-! ## Every kind together -/

/-- R154: the pairs of an ERASE-DONE report. -/
theorem State.eraseDone_layout (s : State) {pairs : List (SlotNum × EraseOutcome)} (few : pairs.length ≤ 24) :
    (s.reportBytes (.eraseDone pairs)).take 4 =
      [0x44#8, 0x00#8, byteOf (1 + 2 * pairs.length), byteOf pairs.length] ∧
    (s.reportBytes (.eraseDone pairs)).length = 4 + 2 * pairs.length ∧
    ∀ (i : Nat) (n : SlotNum) (o : EraseOutcome), pairs[i]? = some (n, o) →
      (s.reportBytes (.eraseDone pairs))[4 + 2 * i]? = some (byteOf n.val) ∧
      (s.reportBytes (.eraseDone pairs))[5 + 2 * i]? = some (if o = .blank then 0x00#8 else 0x01#8) := by
  rw [s.reportBytes_eraseDone few]
  refine ⟨rfl, ?_, fun i n o there => ?_⟩
  · rw [List.length_append, length_flatMap_of_length_eq (n := 2) fun _ _ => rfl, Nat.mul_comm]
    rfl
  · have stands := (StandsAt.flatMap_of_length (n := 2) (f := fun q : SlotNum × EraseOutcome =>
      [byteOf q.1.val, q.2.code]) there fun _ _ => rfl).append_left
        [0x44#8, 0x00#8, byteOf (1 + 2 * pairs.length), byteOf pairs.length]
    refine ⟨stands.getElem? (i := 0) Nat.zero_lt_two, ?_⟩
    rw [← o.code_eq, show 5 + 2 * i = 4 + 2 * i + 1 by omega]
    exact stands.getElem? (i := 1) Nat.one_lt_two

/-- R147, R148: the fields of an entry report. -/
theorem State.entry_layout (s : State) (e : EntryReport) :
    let size (fields : List SentField) : Nat := (fields.map fun f => 2 + f.length).sum
    let bytes := s.reportBytes (.entry e)
    bytes.length = 9 + size e.fields ∧
    bytes.take 9 = [0x45#8, byteOf ((6 + size e.fields) / 256), byteOf (6 + size e.fields), byteOf e.page.val,
      e.serial, byteOf e.sendKey, byteOf e.row, byteOf e.column, byteOf e.fields.length] ∧
    ∀ (i : Nat) (f : SentField), e.fields[i]? = some f →
      let at_ := 9 + size (e.fields.take i)
      bytes[at_]? = some (byteOf f.number) ∧ bytes[at_ + 1]? = some (byteOf f.length) ∧
      ∀ j < f.length, bytes[at_ + 2 + j]? = some
        (if (s.page e.page).cells.read (f.start + j) = 0x00#8 then 0x20#8
        else (s.page e.page).cells.read (f.start + j)) := by
  refine ⟨?_, ?_, fun i f there => ?_⟩
  · rw [State.reportBytes_entry, List.length_append, SentField.length_flatMap_bytes]
    rfl
  · rw [State.reportBytes_entry]
    rfl
  · have stands := s.standsAt_sentField there
    have length := f.length_bytes (s.page e.page).cells
    refine ⟨stands.getElem? (i := 0) (by omega), stands.getElem? (i := 1) (by omega), fun j inside => ?_⟩
    rw [Nat.add_assoc, stands.getElem? (by omega), Nat.add_comm 2 j]
    simp only [SentField.bytes, List.getElem?_cons_succ, List.getElem?_map, Cells.getElem?_readRun _ inside,
      Option.map_some, sentByte]

/-- R153: the blocks of a STATUS report. -/
theorem State.status_layout (s : State) {r : StatusReport} (pages : r.pages.length = 6) (slots : r.slots.length = 24)
    (labels : ∀ x ∈ r.slots, x.label.length = 8) :
    let bytes := s.reportBytes (.status r)
    let n := r.ready.length
    bytes.length = 303 + n ∧ bytes.take 3 = [0x53#8, byteOf ((300 + n) / 256), byteOf (300 + n)] ∧
    (∀ (i : Nat) (g : PageStatus), r.pages[i]? = some g → (bytes.drop (3 + 5 * i)).take 5 =
      [g.state.code, byteOf g.fieldCount, g.serial, if g.overdue then 0x01#8 else 0x00#8,
        if g.unsent then 0x01#8 else 0x00#8]) ∧
    bytes[33]? = some (byteOf n) ∧
    (∀ (j : Nat) (p : PageNum), r.ready[j]? = some p → bytes[34 + j]? = some (byteOf p.val)) ∧
    (bytes.drop (34 + n)).take 5 =
      [match r.active with | some p => byteOf p.val | none => 0xFF#8, byteOf (r.freeRecords / 256),
        byteOf r.freeRecords, byteOf r.reports, r.unit.code] ∧
    ∀ (i : Nat) (x : SlotStatus), r.slots[i]? = some x →
      (bytes.drop (39 + n + 11 * i)).take 11 = x.state.code :: byteOf (x.used / 256) :: byteOf x.used :: x.label := by
  have body : r.body.length = 300 + r.ready.length := StatusReport.length_body pages slots labels
  refine ⟨?_, ?_, fun i g there => ?_, ?_, fun j p there => ?_, ?_, fun i x there => ?_⟩
  · rw [State.length_reportBytes, State.reportBody, body]
    omega
  · rw [State.reportBytes_status, body]
    rfl
  · exact (State.standsAt_pageStatus there).take_drop rfl
  · exact (State.standsAt_readyCount pages).getElem? (i := 0) Nat.one_pos
  · obtain ⟨below, -⟩ := List.getElem?_eq_some_iff.1 there
    rw [(State.standsAt_ready pages).getElem? (by simpa using below), List.getElem?_map, there]
    rfl
  · exact (State.standsAt_unit pages).take_drop rfl
  · refine (State.standsAt_slotStatus pages labels there).take_drop ?_
    simp [SlotStatus.bytes, length_twoBytes, labels x (List.mem_of_getElem? there)]

/-- Settles O42, kind by kind. -/
theorem reportLayouts : Obligations.ReportLayouts := fun s =>
  ⟨s.reportBytes_completion, rfl, fun p serial => s.reportBytes_attention p .key serial,
    fun p c serial => s.reportBytes_attention p (.chain c) serial,
    fun p n serial => s.reportBytes_attention p (.exit n) serial, s.reportBytes_start,
    fun _ few => s.eraseDone_layout few, s.entry_layout,
    fun _ pages slots labels => s.status_layout pages slots labels, rfl, rfl, fun _ => rfl⟩

end Sys2Proof.Machine

/-! # The erase unit's events

A run's slots are taken lowest number first (R169, R170). After the last of them the run's result is queued, or merged into
the pending erase notice (R154). -/

namespace Sys2Proof.Machine

/-! ## The merging of results -/

/-- R154: one pair merged into a notice. -/
theorem mergedPairs_cons (notice : List (SlotNum × EraseOutcome)) (r : SlotNum × EraseOutcome)
    {result : List (SlotNum × EraseOutcome)} (fresh : ∀ x ∈ result, x.1 ≠ r.1) :
    mergedPairs notice (r :: result) = mergedPairs
      (if notice.any (·.1 == r.1) then notice.map (fun q => if q.1 = r.1 then r else q) else notice ++ [r]) result := by
  have absent : result.find? (fun x => x.1 == r.1) = none := by simpa using fun a b m => fresh (a, b) m
  have first (q : SlotNum × EraseOutcome) : ((r :: result).find? fun x => x.1 == q.1).getD q =
      (result.find? fun x => x.1 == (if q.1 = r.1 then r else q).1).getD (if q.1 = r.1 then r else q) := by
    by_cases same : q.1 = r.1
    · simp [same, absent]
    · simp [same, Ne.symm same]
  unfold mergedPairs
  split
  · rename_i listed
    have skipped : notice.all (fun q => q.1 != r.1) = false := by
      simpa [List.all_eq_not_any_not] using listed
    rw [List.filter_cons_of_neg (by simp [skipped]), List.map_map]
    congr 1
    · exact List.map_congr_left fun q _ => first q
    · refine List.filter_congr fun x _ => ?_
      rw [List.all_map]
      congr 1
      funext q
      by_cases same : q.1 = r.1 <;> simp [same]
  · rename_i listed
    have others : ∀ q ∈ notice, q.1 ≠ r.1 := fun q m same => listed (List.any_eq_true.2 ⟨q, m, by simpa using same⟩)
    rw [List.filter_cons_of_pos (by simpa using fun a b m => others (a, b) m), List.map_append, List.append_assoc]
    congr 1
    · exact List.map_congr_left fun q m => by rw [first q, if_neg (others q m)]
    · simp only [List.map_cons, List.map_nil, absent, Option.getD_none, List.singleton_append, List.cons.injEq, true_and]
      refine List.filter_congr fun x m => ?_
      simp [Ne.symm (fresh x m)]

/-- R154: the pairs of a result merged one after another. -/
theorem mergeResult_eq {notice result : List (SlotNum × EraseOutcome)} (once : (result.map (·.1)).Nodup) :
    mergeResult notice result = mergedPairs notice result := by
  induction result generalizing notice with
  | nil => simp [mergeResult, mergedPairs]
  | cons r result ih =>
    obtain ⟨fresh, once⟩ := List.nodup_cons.1 once
    rw [mergedPairs_cons notice r fun x m same => fresh (List.mem_map.2 ⟨x, m, same⟩), ← ih once]
    rfl

/-- R154: a result is queued, or merged into the pending erase notice. -/
theorem State.handResult_eq (s : State) {result : List (SlotNum × EraseOutcome)} (once : (result.map (·.1)).Nodup) :
    s.handResult result = { s with
      reports :=
        if s.reports.queue.length < 8 then { s.reports with queue := s.reports.queue ++ [.eraseDone result] }
        else { s.reports with notice := some (mergedPairs (s.reports.notice.getD []) result) } } := by
  unfold State.handResult State.queueFull State.queueReport
  rw [mergeResult_eq once]
  by_cases room : s.reports.queue.length < 8 <;> simp [room, Nat.not_le.2, Nat.not_lt.1]

/-! ## The lowest-numbered QUEUED slot -/

theorem allSlots_split (n : SlotNum) : ∃ after, allSlots = (allSlots.filter (· < n)) ++ n :: after :=
  ⟨allSlots.filter (n < ·), by revert n; decide⟩

theorem SlotState.isQueued_iff {x : SlotState} : x.isQueued = true ↔ ∃ k, x = .queued k := by
  cases x <;> simp [SlotState.isQueued]

section lowest

variable {s : State} {n m : SlotNum}

theorem State.lowestQueued_eq_some (queued : ∃ k, (s.slot n).state = .queued k)
    (before : ∀ j : SlotNum, j < n → ∀ k, (s.slot j).state ≠ .queued k) : s.lowestQueued = some n := by
  obtain ⟨after, split⟩ := allSlots_split n
  unfold State.lowestQueued
  rw [split, List.find?_append, List.find?_eq_none.2 fun j hj => by
    rw [SlotState.isQueued_iff, not_exists]
    exact before j (by simpa using List.of_mem_filter hj)]
  simp [SlotState.isQueued_iff.2 queued]

theorem State.lowestQueued_eq_none (none_ : ∀ j : SlotNum, ∀ k, (s.slot j).state ≠ .queued k) : s.lowestQueued = none :=
  List.find?_eq_none.2 fun j _ => by
    rw [SlotState.isQueued_iff, not_exists]
    exact none_ j

end lowest

/-! ## What follows a slot that is finished -/

section finished

variable {s t : State} {n m : SlotNum}

/-- The slot has been taken out of the erase work, and the other slots stay. -/
structure State.Finished (s t : State) (n : SlotNum) : Prop where
  off : ∀ k, (t.slot n).state ≠ .queued k
  others : ∀ j : SlotNum, j ≠ n → t.slot j = s.slot j

theorem State.finished_updSlot {f : Slot → Slot} (slots : t.store.slots = (s.updSlot n f).store.slots)
    (off : ∀ k, (f (s.slot n)).state ≠ .queued k) : s.Finished t n := by
  have slot (j : SlotNum) : t.slot j = if j = n then f (s.slot n) else s.slot j := by
    rw [← s.slot_updSlot n j f]
    simp only [State.slot, slots]
  exact ⟨fun k => by rw [slot, if_pos rfl]; exact off k, fun j ne => by rw [slot, if_neg ne]⟩

theorem State.finished_passSlot (s : State) (n : SlotNum) : s.Finished (s.passSlot n) n :=
  State.finished_updSlot (f := fun _ => erasedSlot) rfl nofun

theorem State.finished_giveUpSlot (s : State) (n : SlotNum) : s.Finished (s.giveUpSlot n) n :=
  State.finished_updSlot (f := fun slot => slot.become .failed) rfl nofun

/-- R170: the lowest-numbered QUEUED slot beside the one that is finished. -/
theorem State.Finished.lowestQueued (h : s.Finished t n) (queued : ∃ k, (s.slot m).state = .queued k) (ne : m ≠ n)
    (before : ∀ j : SlotNum, j < m → j ≠ n → ∀ k, (s.slot j).state ≠ .queued k) : t.lowestQueued = some m := by
  refine State.lowestQueued_eq_some (by rwa [h.others m ne]) fun j below => ?_
  by_cases here : j = n
  · exact here ▸ h.off
  · rw [h.others j here]
    exact before j below here

theorem State.Finished.lowestQueued_none (h : s.Finished t n)
    (none_ : ∀ j : SlotNum, j ≠ n → ∀ k, (s.slot j).state ≠ .queued k) : t.lowestQueued = none :=
  State.lowestQueued_eq_none fun j => by
    by_cases here : j = n
    · exact here ▸ h.off
    · rw [h.others j here]
      exact none_ j here

/-- R170, R172: with no slot QUEUED the run ends, whatever the unit was doing. -/
theorem State.nextSlot_of_none (h : s.lowestQueued = none) : s.nextSlot = s.endRun ∧ s.restUnit = s.endRun := by
  simp only [State.nextSlot, State.restUnit, h, and_self]

theorem State.nextSlot_of_some (h : s.lowestQueued = some m) :
    s.nextSlot = s.startSlot m ∧ s.restUnit = { s with store.unit.state := .paused } := by
  simp only [State.nextSlot, State.restUnit, h, and_self]

end finished

/-- R154, R170: the end of a run. -/
theorem State.endRun_eq (s : State) (once : (s.store.unit.result.map (·.1)).Nodup) : s.endRun = { s with
    store.unit := { s.store.unit with state := .idle, batch := [], result := [] }
    reports :=
      if s.reports.queue.length < 8 then
        { s.reports with queue := s.reports.queue ++ [.eraseDone s.store.unit.result] }
      else { s.reports with notice := some (mergedPairs (s.reports.notice.getD []) s.store.unit.result) } } :=
  State.handResult_eq _ once

/-! ## The events -/

section attempts

variable {s : State} {n : SlotNum} (work : s.store.unit.work = some n)

include work

/-- R170: an attempt that ends while the unit is ERASING. -/
theorem State.endAttempt_erasing (erasing : s.store.unit.state = .erasing) :
    s.endAttempt .pass = (s.passSlot n).nextSlot ∧
    (s.store.unit.attempts < 3 → s.endAttempt .fail = { s with store.unit.attempts := s.store.unit.attempts + 1 }) ∧
    (s.store.unit.attempts = 3 → s.endAttempt .fail = (s.giveUpSlot n).nextSlot) := by
  refine ⟨?_, fun few => ?_, fun fourth => ?_⟩
  · simp only [State.endAttempt, work, erasing]
  · simp only [State.endAttempt, work, erasing, few, if_true]
  · simp only [State.endAttempt, work, erasing, fourth, Nat.lt_irrefl, if_false]

/-- R172: an attempt that ends, or is stopped, while the unit is PAUSING. -/
theorem State.endAttempt_pausing (pausing : s.store.unit.state = .pausing) :
    s.endAttempt .stopped = s.holdSlot n s.store.unit.attempts ∧
    s.endAttempt .pass = (s.passSlot n).restUnit ∧
    (s.store.unit.attempts < 3 → s.endAttempt .fail = s.holdSlot n (s.store.unit.attempts + 1)) ∧
    (s.store.unit.attempts = 3 → s.endAttempt .fail = (s.giveUpSlot n).restUnit) := by
  refine ⟨?_, ?_, fun few => ?_, fun fourth => ?_⟩
  · simp only [State.endAttempt, work, pausing]
  · simp only [State.endAttempt, work, pausing]
  · simp only [State.endAttempt, work, pausing, few, if_true]
  · simp only [State.endAttempt, work, pausing, fourth, Nat.lt_irrefl, if_false]

end attempts

/-- R169: the gathering window's expiry starts the lowest-numbered QUEUED slot. -/
theorem State.endGathering_of_queued {s : State} {n : SlotNum} (gathering : s.store.unit.state = .gathering)
    (lowest : s.lowestQueued = some n) : s.endGathering = { s with store.unit.window := none }.startSlot n := by
  simp only [State.endGathering, gathering, lowest]

/-- R170: the next slot is started with the unit ERASING already. -/
theorem State.startSlot_of_erasing {s : State} (m : SlotNum) (erasing : s.store.unit.state = .erasing) :
    s.startSlot m = { s.updSlot m fun x => { x with state := .erasing } with
      store.unit := { s.store.unit with work := some m, attempts := 0 } } := by
  simp only [State.startSlot, State.updSlot, ← erasing]
  rfl

/-- Settles O58: the slot in work is finished or tried again; the lowest-numbered QUEUED slot or the end of the run
follows. -/
theorem eraseUnitEvents : Obligations.EraseUnitEvents := by
  intro s n
  have passed := s.finished_passSlot n
  have givenUp := s.finished_giveUpSlot n
  have keys (o : EraseOutcome) (once : ((s.store.unit.result ++ [(n, EraseOutcome.blank)]).map (·.1)).Nodup) :
      ((s.store.unit.result ++ [(n, o)]).map (·.1)).Nodup := by simpa using once
  refine ⟨fun gathering queued before => ?_, fun work erasing => ?_, fun work pausing _ => ?_⟩
  · exact congrArg Host.Outcome.next
      (State.endGathering_of_queued gathering (State.lowestQueued_eq_some queued before))
  · obtain ⟨pass, again, fail⟩ := State.endAttempt_erasing work erasing
    refine ⟨fun few => congrArg _ (again few), fun m ⟨queued, ne, before⟩ => congrArg Host.Outcome.next ?_,
      fun m ⟨queued, ne, before⟩ fourth => congrArg Host.Outcome.next ?_,
      fun none_ once => ⟨congrArg Host.Outcome.next ?_, fun fourth => congrArg Host.Outcome.next ?_⟩⟩
    · rw [pass, (State.nextSlot_of_some (passed.lowestQueued queued ne before)).1]
      exact State.startSlot_of_erasing m erasing
    · rw [fail fourth, (State.nextSlot_of_some (givenUp.lowestQueued queued ne before)).1]
      exact State.startSlot_of_erasing m erasing
    · rw [pass, (State.nextSlot_of_none (passed.lowestQueued_none none_)).1]
      exact State.endRun_eq _ (keys .blank once)
    · rw [fail fourth, (State.nextSlot_of_none (givenUp.lowestQueued_none none_)).1]
      exact State.endRun_eq _ (keys .failed once)
  · obtain ⟨stopped, pass, again, fail⟩ := State.endAttempt_pausing work pausing
    refine ⟨congrArg _ stopped, fun few => congrArg _ (again few), fun m ⟨queued, ne, before⟩ =>
      ⟨congrArg Host.Outcome.next ?_, fun fourth => congrArg Host.Outcome.next ?_⟩,
      fun none_ once => ⟨congrArg Host.Outcome.next ?_, fun fourth => congrArg Host.Outcome.next ?_⟩⟩
    · rw [pass, (State.nextSlot_of_some (passed.lowestQueued queued ne before)).2]
      rfl
    · rw [fail fourth, (State.nextSlot_of_some (givenUp.lowestQueued queued ne before)).2]
      rfl
    · rw [pass, (State.nextSlot_of_none (passed.lowestQueued_none none_)).2]
      exact State.endRun_eq _ (keys .blank once)
    · rw [fail fourth, (State.nextSlot_of_none (givenUp.lowestQueued_none none_)).2]
      exact State.endRun_eq _ (keys .failed once)

end Sys2Proof.Machine

/-! # The stream reset

R157: the queue is emptied, the SENDING pages come back, and what waits takes the first free entries, in the order of R156. -/

namespace Sys2Proof.Machine

/-! ## The reports that wait -/

/-- The pending causes of a set, in the order in which they take freed entries (R156). -/
def AttentionSet.causes (a : AttentionSet) : List Cause :=
  (if a.key then [Cause.key] else []) ++ (allChains.filter fun c => a.chains[c.val]).map Cause.chain ++
    (a.exit.map Cause.exit).toList

theorem Page.waiting_eq (g : Page) (p : PageNum) :
    g.waiting p = g.attention.causes.map fun cause => .attention p cause g.serial := rfl

theorem AttentionSet.causes_of_first_eq_none {a : AttentionSet} (h : a.first = none) : a.causes = [] := by
  rw [AttentionSet.eq_empty_of_first h]
  decide

/-- The first match of a list without repetitions, and the matches behind it. -/
theorem filter_of_find?_eq_some {α : Type} [DecidableEq α] {p : α → Bool} {c : α} {l : List α} (once : l.Nodup)
    (h : l.find? p = some c) : l.filter p = c :: l.filter fun d => p d && d != c := by
  induction l with
  | nil => cases h
  | cons x l ih =>
    obtain ⟨fresh, once⟩ := List.nodup_cons.1 once
    by_cases hit : p x = true
    · rw [List.find?_cons_of_pos hit] at h
      obtain rfl := Option.some.inj h
      rw [List.filter_cons_of_pos hit, List.filter_cons_of_neg (by simp)]
      congr 1
      refine List.filter_congr fun d hd => ?_
      have other : d ≠ x := fun same => fresh (same ▸ hd)
      simp [other]
    · rw [List.find?_cons_of_neg hit] at h
      rw [List.filter_cons_of_neg hit, List.filter_cons_of_neg (by simp [hit]), ih once h]

/-- R156: the first cause leaves the others in their order. -/
theorem AttentionSet.causes_of_first {a : AttentionSet} {cause : Cause} (h : a.first = some cause) :
    a.causes = cause :: (a.remove cause).causes := by
  unfold AttentionSet.first at h
  split at h
  · rename_i key
    obtain rfl := Option.some.inj h
    simp [AttentionSet.causes, AttentionSet.remove, key]
  · rename_i key
    split at h
    · rename_i c found
      obtain rfl := Option.some.inj h
      have left (d : ChainId) : (a.chains.set c.val false)[d.val] = (a.chains[d.val] && d != c) := by
        rw [Vector.getElem_set]
        by_cases same : d = c
        · simp [same]
        · simp [same, Fin.val_inj, Ne.symm same]
      simp [AttentionSet.causes, AttentionSet.remove, key, left, filter_of_find?_eq_some (by decide) found]
    · rename_i none_
      obtain ⟨n, exit, rfl⟩ := Option.map_eq_some_iff.1 h
      have off : allChains.filter (fun c => a.chains[c.val]) = [] :=
        List.filter_eq_nil_iff.2 (List.find?_eq_none.1 none_)
      simp [AttentionSet.causes, AttentionSet.remove, key, off, exit]

section waiting

variable {s t : State}

/-- The attention reports that wait (R156). -/
def State.attentions (s : State) : List Report := allPages.flatMap fun p => (s.page p).waiting p

theorem State.waiting_eq (s : State) : s.waiting = (s.reports.notice.map Report.eraseDone).toList ++ s.attentions := rfl

theorem State.attentions_congr (page : ∀ q, (t.page q).waiting q = (s.page q).waiting q) : t.attentions = s.attentions := by
  simp only [State.attentions, page]

theorem State.waiting_page_of_first_eq_none {p : PageNum} (h : (s.page p).attention.first = none) :
    (s.page p).waiting p = [] := by
  rw [Page.waiting_eq, AttentionSet.causes_of_first_eq_none h, List.map_nil]

theorem State.attentions_of_firstAttention_eq_none (h : s.firstAttention = none) : s.attentions = [] :=
  List.flatMap_eq_nil_iff.2 fun q _ =>
    State.waiting_page_of_first_eq_none (by rw [State.attention_of_firstAttention h q, AttentionSet.first_empty])

/-- R156: the first attention cause of the lowest page comes first; the others stay in their order. -/
theorem State.attentions_of_firstAttention {p : PageNum} {cause : Cause} (h : s.firstAttention = some (p, cause)) :
    s.attentions = .attention p cause (s.page p).serial ::
      (s.updPage p fun g => { g with attention := g.attention.remove cause }).attentions := by
  obtain ⟨before, q, after, split_, found, off⟩ := List.findSome?_eq_some_iff.1 h
  obtain ⟨c, first, same⟩ := Option.map_eq_some_iff.1 found
  obtain ⟨rfl, rfl⟩ := Prod.mk.inj same
  have once : (before ++ q :: after).Nodup := split_ ▸ (by decide : allPages.Nodup)
  obtain ⟨-, fresh, apart⟩ := List.nodup_append.1 once
  generalize ht : (s.updPage q fun g => { g with attention := g.attention.remove c }) = t
  have page : t.page q = { s.page q with attention := (s.page q).attention.remove c } := by
    rw [← ht, State.page_updPage_self]
  have others {x : PageNum} (ne : x ≠ q) : (t.page x).waiting x = (s.page x).waiting x := by
    rw [← ht, State.page_updPage, if_neg ne]
  have idle : ∀ x ∈ before, (s.page x).waiting x = [] := fun x hx =>
    State.waiting_page_of_first_eq_none (by simpa using off x hx)
  have idle' : ∀ x ∈ before, (t.page x).waiting x = [] := fun x hx => by
    rw [others (apart x hx q List.mem_cons_self), idle x hx]
  have behind : after.flatMap (fun x => (t.page x).waiting x) = after.flatMap fun x => (s.page x).waiting x :=
    List.flatMap_congr fun x hx => others fun e => (List.nodup_cons.1 fresh).1 (e ▸ hx)
  have here : (s.page q).waiting q = .attention q c (s.page q).serial :: (t.page q).waiting q := by
    rw [page, Page.waiting_eq, Page.waiting_eq, AttentionSet.causes_of_first first]
    rfl
  simp only [State.attentions, split_, List.flatMap_append, List.flatMap_cons, here, behind,
    List.flatMap_eq_nil_iff.2 idle, List.flatMap_eq_nil_iff.2 idle', List.nil_append, List.cons_append]

/-- R156: a freed entry takes the first report that waits beside a stalled one. -/
theorem State.handFreed_unstalled (free : s.interp.stalled = none) :
    (∃ pages, s.handFreed = { s with
      pages := pages
      reports := { s.reports with queue := s.reports.queue ++ s.waiting.take 1, notice := none } }) ∧
    s.handFreed.waiting = s.waiting.drop 1 := by
  cases notice : s.reports.notice with
  | some pairs =>
    have handed : s.handFreed = { s with reports.notice := none }.queueReport (.eraseDone pairs) := by
      simp only [State.handFreed, free, notice]
    rw [handed, s.waiting_eq, notice]
    exact ⟨⟨s.pages, rfl⟩, rfl⟩
  | none =>
    have waiting : s.waiting = s.attentions := by simp [s.waiting_eq, notice]
    cases first : s.firstAttention with
    | some pc =>
      obtain ⟨p, cause⟩ := pc
      have handed : s.handFreed = (s.updPage p fun g => { g with attention := g.attention.remove cause }).queueReport
          (.attention p cause (s.page p).serial) := by
        simp only [State.handFreed, free, notice, first]
        rfl
      rw [handed, waiting, State.attentions_of_firstAttention first, ← notice]
      refine ⟨⟨_, rfl⟩, ?_⟩
      rw [State.waiting_eq, State.queueReport_reports_notice, State.updPage_reports, notice]
      rfl
    | none =>
      have handed : s.handFreed = s := by simp only [State.handFreed, free, notice, first]
      have idle : s.waiting = [] := waiting.trans (State.attentions_of_firstAttention_eq_none first)
      rw [handed, idle, ← notice]
      exact ⟨⟨s.pages, by simp⟩, rfl⟩

/-- R156: several freed entries take the reports that wait beside a stalled one, in their order. -/
theorem State.handFreedTimes_unstalled (n : Nat) (free : s.interp.stalled = none) :
    (∃ pages, State.handFreedTimes (n + 1) s = { s with
      pages := pages
      reports := { s.reports with queue := s.reports.queue ++ s.waiting.take (n + 1), notice := none } }) ∧
    (State.handFreedTimes (n + 1) s).waiting = s.waiting.drop (n + 1) := by
  induction n generalizing s with
  | zero => exact State.handFreed_unstalled free
  | succ n ih =>
    obtain ⟨⟨pages, once⟩, left⟩ := State.handFreed_unstalled free
    obtain ⟨⟨all, rest⟩, leaves⟩ := ih (s := s.handFreed) (by rw [once]; exact free)
    have taken : s.waiting.take 1 ++ (s.waiting.drop 1).take (n + 1) = s.waiting.take (n + 1 + 1) := by
      rw [← List.take_add, Nat.add_comm 1]
    refine ⟨⟨all, rest.trans ?_⟩, leaves.trans ?_⟩
    · rw [left, once]
      simp only [List.append_assoc, taken]
    · rw [left, List.drop_drop, Nat.add_comm 1]

theorem State.waiting_congr (notice : t.reports.notice = s.reports.notice)
    (page : ∀ q, (t.page q).attention = (s.page q).attention ∧ (t.page q).serial = (s.page q).serial) :
    t.waiting = s.waiting := by
  rw [State.waiting_eq, State.waiting_eq, notice, State.attentions_congr (s := s) (t := t) fun q => by
    simp only [Page.waiting_eq, (page q).1, (page q).2]]

theorem State.serial_promote (s : State) (q : PageNum) : (s.promote.page q).serial = (s.page q).serial := by
  rcases s.page_promote_or q with same | same <;> rw [same]

theorem State.waiting_promote (s : State) : s.promote.waiting = s.waiting :=
  State.waiting_congr (by rw [State.promote_reports]) fun q => ⟨s.attention_promote q, s.serial_promote q⟩

theorem State.handFreedTimes_idle (n : Nat) (h : s.nothingWaits) : State.handFreedTimes n s = s := by
  induction n with
  | zero => rfl
  | succ n ih => rw [State.handFreedTimes, State.handFreed_idle h, ih]

end waiting

/-! ## With no transaction in flight -/

section idle

variable {s : State}

/-- R157, steps 1 to 3, with no transaction in flight: the queue is emptied and the pages are given as they come back; the
promotion is still to follow. -/
def State.broughtBack (s : State) (pages : Vector Page 6) : State :=
  { s with
    pages := pages
    ready := s.sendingPages ++ s.ready
    interp := { s.interp with stalled := none }
    reports := { s.reports with queue := [], taken := 0, padding := 0 } }

theorem State.returnSending_idle (none_ : s.inFlightTxn = none) : ∃ pages,
    s.cutShort.emptyReports.returnSending = (s.broughtBack pages).promote ∧
    ∀ q, (s.broughtBack pages).page q = (s.page q).unsentReturn := by
  have cut : s.cutShort = { s with interp.stalled := none } := by simp only [State.cutShort, none_]
  obtain ⟨pages, frame, page⟩ := s.cutShort.emptyReports.returnSending_eq
  rw [cut] at frame page
  exact ⟨pages, (by rw [cut]; exact frame), page⟩

/-- No report that waits beside the stalled one is lost on the way (R156). -/
theorem State.waiting_broughtBack {pages : Vector Page 6}
    (page : ∀ q, (s.broughtBack pages).page q = (s.page q).unsentReturn) :
    (s.broughtBack pages).promote.waiting = s.waiting := by
  refine (State.waiting_promote _).trans (State.waiting_congr rfl fun q => ?_)
  rw [page q]
  exact ⟨Page.attention_unsentReturn _, by unfold Page.unsentReturn; split <;> rfl⟩

theorem Page.eq_of_attention {g h : Page} (same : ∃ set, g = { h with attention := set }) :
    g = { h with attention := g.attention } := by
  obtain ⟨set, rfl⟩ := same
  rfl

/-- R143, R157: a stream reset with no transaction in flight. -/
theorem State.exec_streamReset_idle (idle : s.interp.state ≠ .orders) : ∃ pages t,
    (∀ q, (s.broughtBack pages).page q = (s.page q).unsentReturn) ∧
    exec .streamReset s = .next t ∧ t.waiting = s.waiting.drop 8 ∧
    (∀ q, t.page q = { (s.broughtBack pages).promote.page q with attention := (t.page q).attention }) ∧
    t = { (s.broughtBack pages).promote with
      pages := t.pages
      reports := { queue := s.waiting.take 8, taken := 0, padding := 0, notice := none }
      interp := { s.interp with state := .between, txn := none, stalled := none } } := by
  have none_ : s.inFlightTxn = none := State.inFlightTxn_of_state idle
  obtain ⟨pages, returned, page⟩ := State.returnSending_idle none_
  have waits := State.waiting_broughtBack page
  have reports : (s.broughtBack pages).promote.reports = (s.broughtBack pages).reports := State.promote_reports _
  have interp : (s.broughtBack pages).promote.interp = (s.broughtBack pages).interp := State.promote_interp _
  generalize hw : (s.broughtBack pages).promote = w at *
  obtain ⟨⟨all, handed⟩, left⟩ := State.handFreedTimes_unstalled (s := w) 7 (by rw [interp]; rfl)
  have emptied : s.streamEmptied = State.handFreedTimes 8 w := by rw [State.streamEmptied, returned]
  have ends : s.streamEmptied.endCutShort =
      { State.handFreedTimes 8 w with interp.txn := none, interp.state := .between } := by
    rw [← emptied]
    simp only [State.endCutShort, State.inFlightTxn_streamEmptied, none_]
  refine ⟨pages, { State.handFreedTimes 8 w with interp.txn := none, interp.state := .between }, page,
    congrArg Host.Outcome.next ends, ?_, fun q => ?_, ?_⟩
  · rw [← waits]
    exact left
  · rw [hw]
    exact Page.eq_of_attention ((State.handed_handFreedTimes 8 w).page q)
  · rw [hw, handed, waits, reports, interp]
    rfl

end idle

/-! ## With a transaction in flight -/

/-- The abort's effects leave a page as it is, or release it (R127). -/
theorem State.abortEffects_frame (s : State) (t : Transaction) : ∃ pages store,
    s.abortEffects t = { s with pages := pages, store := store } ∧
    ∀ q, (s.abortEffects t).page q = s.page q ∨ (s.abortEffects t).page q = (s.page q).released := by
  unfold State.abortEffects
  split
  · refine ⟨_, s.store, rfl, fun q => ?_⟩
    rw [State.page_updPage]
    split
    · subst_vars
      exact .inr rfl
    · exact .inl rfl
  · split
    · exact ⟨s.pages, _, rfl, fun _ => .inl rfl⟩
    · exact ⟨s.pages, s.store, rfl, fun _ => .inl rfl⟩
  · exact ⟨s.pages, s.store, rfl, fun _ => .inl rfl⟩

/-- R157 step 3 with no page SENDING and no page to promote. -/
theorem State.returnSending_of_none {s : State} (none_ : s.sendingPages = []) (idle : s.active ≠ none ∨ s.ready = []) :
    s.returnSending = s := by
  have still : s.returnSending = s.promote := by
    unfold State.returnSending
    simp only
    rw [← State.sendingPages, none_]
    rfl
  rw [still]
  rcases idle with active | ready
  · obtain ⟨a, active⟩ := Option.ne_none_iff_exists'.1 active
    exact State.promote_active active
  · exact State.promote_empty ready

theorem State.sendingPages_eq_nil {s : State} : s.sendingPages = [] ↔ ∀ q, (s.page q).state ≠ .sending := by
  simp [State.sendingPages, mem_allPages]

section cutShort

variable {s : State} {t : Transaction} {k : Kind}

theorem State.nothingWaits_abortEffects (waits : s.nothingWaits) (t : Transaction) :
    (s.abortEffects t).nothingWaits := by
  obtain ⟨stalled, notice, attention⟩ := waits
  obtain ⟨pages, store, frame, page⟩ := s.abortEffects_frame t
  refine ⟨by rw [frame]; exact stalled, by rw [frame]; exact notice, fun q => ?_⟩
  exact (page q).elim (fun same => same ▸ attention q) fun same => same ▸ rfl

theorem State.sendingPages_abortEffects (none_ : s.sendingPages = []) (t : Transaction) :
    (s.abortEffects t).sendingPages = [] := by
  obtain ⟨pages, store, -, page⟩ := s.abortEffects_frame t
  refine State.sendingPages_eq_nil.2 fun q => (page q).elim (fun same => ?_) fun same => same ▸ nofun
  exact same ▸ State.sendingPages_eq_nil.1 none_ q

/-- R157, steps 1 to 4: the abort's effects and the emptied queue, with no page to return and nothing to hand out. -/
theorem State.streamEmptied_orders (flying : s.inFlightTxn = some t) (waits : s.nothingWaits)
    (none_ : s.sendingPages = []) (idle : s.active ≠ none ∨ s.ready = []) :
    s.streamEmptied = (s.abortEffects t).emptyReports := by
  obtain ⟨stalled, -⟩ := id waits
  obtain ⟨pages, store, frame, -⟩ := s.abortEffects_frame t
  have unstalled : s.cutShort = s.abortEffects t := by
    simp only [State.cutShort, flying, frame]
    rw [← stalled]
  have idle' : (s.abortEffects t).active ≠ none ∨ (s.abortEffects t).ready = [] := by
    rw [frame]
    exact idle
  have returned := State.returnSending_of_none (s := (s.abortEffects t).emptyReports)
    (State.sendingPages_abortEffects none_ t) idle'
  have nothing : (s.abortEffects t).emptyReports.nothingWaits := State.nothingWaits_abortEffects waits t
  rw [State.streamEmptied, unstalled, returned, State.handFreedTimes_idle 8 nothing]

/-- R143, R157: a stream reset that cuts a transaction short, while nothing waits and nothing is held. -/
theorem State.exec_streamReset_orders (state : s.interp.state = .orders) (txn : s.interp.txn = some t)
    (kind : t.kind = some k) (waits : s.nothingWaits) (held : s.nothingHeld) (none_ : s.sendingPages = [])
    (idle : s.active ≠ none ∨ s.ready = []) :
    exec .streamReset s = .next { s.afterAbort t k with
      reports := { s.reports with queue := [], taken := 0, padding := 0 }
      interp := { s.interp with state := .between, txn := none } } := by
  have flying : s.inFlightTxn = some t := by simp [State.inFlightTxn, state, txn]
  have unheld : (s.abortEffects t).emptyReports.nothingHeld := State.nothingHeld_abortEffects txn rfl kind held
  have ends : s.streamEmptied.endCutShort = (s.abortEffects t).emptyReports.closed t .between := by
    simp only [State.endCutShort, State.inFlightTxn_streamEmptied, flying]
    rw [State.streamEmptied_orders flying waits none_ idle, State.closeTransaction_of_nothingHeld _ unheld]
  refine (congrArg Host.Outcome.next ends).trans (congrArg _ ?_)
  obtain ⟨pages, store, frame, -⟩ := s.abortEffects_frame t
  rw [← State.clearMark_abortEffects kind, frame]
  unfold State.closed State.clearMark
  cases t.page with
  | some p => rfl
  | none => rfl

end cutShort

/-- R6: promotion leaves the Template Store. -/
theorem State.promote_store (s : State) : s.promote.store = s.store := by
  unfold State.promote State.refuseHeld
  split
  · simp only
    split <;> rfl
  · rfl

/-- Settles O12: with no transaction in flight by whether a page is promoted; else by the abort's effects. -/
theorem streamResetReturnsSendingPages : Obligations.StreamResetReturnsSendingPages := by
  intro s
  refine ⟨fun idle => ?_, fun t k state txn kind waits held none_ stays =>
    State.exec_streamReset_orders state txn kind waits held none_ stays⟩
  obtain ⟨pages, t, page, run, waiting, attention, frame⟩ := State.exec_streamReset_idle idle
  refine ⟨t, run, by rw [frame], waiting, by rw [frame], by rw [frame]; exact State.promote_store _, fun stays => ?_,
    fun q rest active ready => ?_⟩
  · have still : (s.broughtBack pages).promote = s.broughtBack pages := by
      rcases stays with active | ready
      · obtain ⟨a, active⟩ := Option.ne_none_iff_exists'.1 active
        exact State.promote_active active
      · exact State.promote_empty ready
    rw [still] at frame attention
    refine ⟨by rw [frame]; rfl, by rw [frame]; rfl, by rw [frame]; rfl, by rw [frame]; rfl, by rw [frame]; rfl, fun p => ?_⟩
    rw [attention p, page p]
    rfl
  · have head := State.promote_head (s := s.broughtBack pages) active ready
    have promoted := State.page_promote (s := s.broughtBack pages) active ready
    rw [head] at frame
    refine ⟨by rw [frame], by rw [frame], by rw [frame], by rw [frame]; rfl, by rw [frame]; rfl, fun p => ?_⟩
    rw [attention p, promoted p, page p, page q]
    by_cases here : p = q
    · subst here
      simp only [if_true]
      rfl
    · simp only [if_neg here]
      rfl

end Sys2Proof.Machine

/-! # Orders in two runs side by side

The orders of a page see the pages, the scan unit and the write position, and neither the bytes of the order being read nor
the Template Store. What they make of two states that they see alike is said once here, as it is said of keys and frames
above. -/

namespace Sys2Proof.Machine

/-- A relation between two states in which an order in page p does the same: it is kept when the page is edited, the
confirm-pending record is dropped, the write position is set, or the order is skipped. -/
structure OrderParallel (p : PageNum) (R : State → State → Prop) : Prop where
  pages {s s' : State} : R s s' → s'.pages = s.pages
  scan {s s' : State} : R s s' → s'.scan = s.scan
  writePos {s s' : State} : R s s' → s'.interp.txn.map (·.writePos) = s.interp.txn.map (·.writePos)
  updPage {s s' : State} (f : Page → Page) : R s s' → R (s.updPage p f) (s'.updPage p f)
  dropConfirm {s s' : State} : R s s' → R s.dropConfirm s'.dropConfirm
  setWritePos {s s' : State} (n : Nat) : R s s' → R (s.setWritePos n) (s'.setWritePos n)
  skipOrder {s s' : State} : R s s' → R s.skipOrder s'.skipOrder

/-- Two orders that came to the same, in states that are related. -/
inductive OrderOutcome.Both (R : State → State → Prop) : OrderOutcome → OrderOutcome → Prop
  | done {s s' : State} (r : R s s') : Both R (.done s) (.done s')
  | skipped {s s' : State} (r : R s s') : Both R (.skipped s) (.skipped s')
  | failed {s s' : State} (status : Status) (r : R s s') : Both R (.failed status s) (.failed status s')

theorem OrderOutcome.Both.state {R : State → State → Prop} {a b : OrderOutcome} (h : OrderOutcome.Both R a b) :
    R a.state b.state := by
  cases h <;> assumption

namespace OrderParallel

open OrderOutcome (Both)

variable {p : PageNum} {R : State → State → Prop} {s s' : State}

theorem page (par : OrderParallel p R) (r : R s s') (q : PageNum) : s'.page q = s.page q := by
  simp only [State.page, par.pages r]

variable (par : OrderParallel p R) (r : R s s')

include par r

theorem writeText (kind : Kind) (writePos : Nat) (codes : List Byte) :
    Both R (s.writeText kind p writePos codes) (s'.writeText kind p writePos codes) := by
  unfold State.writeText
  simp only [par.page r]
  split
  · exact .skipped (par.setWritePos _ r)
  · exact .done (par.setWritePos _ (par.updPage _ r))

theorem orderDefine (writePos : Nat) (d : DefineOperands) :
    Both R (s.orderDefine p writePos d) (s'.orderDefine p writePos d) := by
  unfold State.orderDefine State.freeRecords
  simp only [par.page r]
  split
  · exact .failed _ r
  · split
    · exact .failed _ r
    · split
      · exact .failed _ r
      · exact .done (par.updPage _ r)

theorem dropConfirmAt (dropped : Nat → Bool) : R (s.dropConfirmAt p dropped) (s'.dropConfirmAt p dropped) := by
  unfold State.dropConfirmAt
  rw [par.scan r]
  split
  · split
    · exact par.dropConfirm r
    · exact r
  · exact r

theorem orderDrop (operand : Byte) : Both R (s.orderDrop p operand) (s'.orderDrop p operand) := by
  unfold State.orderDrop
  simp only [par.page r]
  split
  · exact .done (par.dropConfirmAt (par.updPage _ r) _)
  · split
    · exact .skipped r
    · exact .done (par.dropConfirmAt (par.updPage _ r) _)

theorem orderMark (operand code : Byte) : Both R (s.orderMark p operand code) (s'.orderMark p operand code) := by
  unfold State.orderMark
  simp only [par.page r]
  split
  · exact .failed _ r
  · split
    · split
      · exact .done (par.updPage _ r)
      · exact .skipped r
    · exact .skipped r

theorem orderUnmodify (operand : Byte) : Both R (s.orderUnmodify p operand) (s'.orderUnmodify p operand) := by
  unfold State.orderUnmodify
  simp only [par.page r]
  split
  · exact .done (par.updPage _ r)
  · split
    · exact .done (par.updPage _ r)
    · exact .skipped r

theorem orderChain (operands : List Byte) : Both R (s.orderChain p operands) (s'.orderChain p operands) := by
  unfold State.orderChain
  simp only [par.page r]
  split
  · exact .failed _ r
  · split
    · exact .done (par.updPage _ r)
    · exact .skipped r

theorem orderUnchain (operand : Byte) : Both R (s.orderUnchain p operand) (s'.orderUnchain p operand) := by
  unfold State.orderUnchain
  simp only [par.page r]
  split
  · exact .failed _ r
  · rename_i c _
    cases (s.page p).chains[c.val] with
    | none => exact .skipped r
    | some _ => exact .done (par.updPage _ r)

theorem orderSelect (operand : Byte) : Both R (s.orderSelect p operand) (s'.orderSelect p operand) := by
  unfold State.orderSelect
  simp only [par.page r]
  split
  · exact .done (par.updPage _ r)
  · split
    · exact .failed _ r
    · rename_i c _
      cases (s.page p).chains[c.val] with
      | none => exact .skipped r
      | some _ => exact .done (par.updPage _ r)

/-- Section 7.5: an order other than RECALL. -/
theorem pageOrder (kind : Kind) (writePos : Nat) (o : OrderCode) (operands : List Byte) :
    Both R (s.pageOrder kind p writePos o operands) (s'.pageOrder kind p writePos o operands) := by
  cases o with
  | setpos =>
    unfold State.pageOrder
    simp only
    split
    · exact .done (par.setWritePos _ r)
    · exact .failed _ r
  | text => exact par.writeText r _ _ _
  | repeatChar | clear =>
    unfold State.pageOrder
    simp only
    split
    · exact par.writeText r _ _ _
    · exact .failed _ r
  | define => exact par.orderDefine r _ _
  | drop => exact par.orderDrop r _
  | cursor =>
    unfold State.pageOrder
    simp only
    split
    · exact .done (par.updPage _ r)
    · exact .failed _ r
  | message => exact .done (par.updPage _ r)
  | mark => exact par.orderMark r _ _
  | unmodify => exact par.orderUnmodify r _
  | chain => exact par.orderChain r _
  | unchain => exact par.orderUnchain r _
  | select => exact par.orderSelect r _
  | _ => exact .failed _ r

end OrderParallel

/-- R166: the first order of a replay, where the record names a write position and the code an order. -/
theorem State.replay_cons {p : PageNum} {s : State} {t : Transaction} {code : Byte} {o : OrderCode}
    (named : orderOfByte code = some o) (txn : s.interp.txn = some t) (operands : List Byte) (rest : List (List Byte)) :
    State.replay p s ((code :: operands) :: rest) =
      match s.pageOrder .load p t.writePos o operands with
      | .done s' => State.replay p s' rest
      | .skipped s' => State.replay p s'.skipOrder rest
      | .failed status s' => .failed status s' := by
  cases ran : s.pageOrder .load p t.writePos o operands <;> simp only [State.replay, named, txn, ran]

/-- R166: what is recorded under no order's code, or outside a transaction, is passed over. -/
theorem State.replay_cons_of_none {p : PageNum} {s : State} {code : Byte}
    (none_ : orderOfByte code = none ∨ s.interp.txn = none) (operands : List Byte) (rest : List (List Byte)) :
    State.replay p s ((code :: operands) :: rest) = State.replay p s rest := by
  rw [State.replay]
  split
  · rename_i named txn
    simp [named, txn] at none_
  · rfl

/-- R166: a replay. -/
theorem OrderParallel.replay {p : PageNum} {R : State → State → Prop} {s s' : State} (par : OrderParallel p R)
    (r : R s s') (orders : List (List Byte)) :
    OrderOutcome.Both R (State.replay p s orders) (State.replay p s' orders) := by
  induction orders generalizing s s' with
  | nil => exact .done r
  | cons order rest ih =>
    cases order with
    | nil => exact ih r
    | cons code operands =>
      have place := par.writePos r
      cases named : orderOfByte code with
      | none =>
        rw [State.replay_cons_of_none (.inl named), State.replay_cons_of_none (.inl named)]
        exact ih r
      | some o =>
        cases txn : s.interp.txn with
        | none =>
          rw [txn, Option.map_none, Option.map_eq_none_iff] at place
          rw [State.replay_cons_of_none (.inr txn), State.replay_cons_of_none (.inr place)]
          exact ih r
        | some t =>
          rw [txn, Option.map_some, Option.map_eq_some_iff] at place
          obtain ⟨t', txn', place⟩ := place
          have one := par.pageOrder r .load t.writePos o operands
          rw [State.replay_cons named txn, State.replay_cons named txn', place]
          generalize s.pageOrder .load p t.writePos o operands = a at one ⊢
          generalize s'.pageOrder .load p t.writePos o operands = b at one ⊢
          cases one with
          | done r => exact ih r
          | skipped r => exact ih (par.skipOrder r)
          | failed status r => exact .failed status r

/-! ## What an order in a page leaves -/

/-- What no order in a page changes: the Template Store, the interpreter's state and the stalled report, and of the record
in flight the header, the index and the order being read. -/
structure State.OrderFrame (s t : State) : Prop where
  store : t.store = s.store
  state : t.interp.state = s.interp.state
  stalled : t.interp.stalled = s.interp.stalled
  txn : t.interp.txn.map (fun r => (r.header, r.index, r.order)) = s.interp.txn.map fun r => (r.header, r.index, r.order)

theorem State.OrderFrame.refl (s : State) : s.OrderFrame s := ⟨rfl, rfl, rfl, rfl⟩

theorem State.OrderFrame.updTxn {s t : State} (a : s.OrderFrame t) {f : Transaction → Transaction}
    (same : ∀ r, ((f r).header, (f r).index, (f r).order) = (r.header, r.index, r.order)) : s.OrderFrame (t.updTxn f) :=
  ⟨a.store, a.state, a.stalled, by rw [State.updTxn_interp_txn, Option.map_map, ← a.txn]; congr 1; exact funext same⟩

/-- A run of orders in a page, beside itself. -/
theorem State.orderParallel_frame (s : State) (p : PageNum) : OrderParallel p fun t t' => t' = t ∧ s.OrderFrame t where
  pages := by
    rintro t _ ⟨rfl, -⟩
    rfl
  scan := by
    rintro t _ ⟨rfl, -⟩
    rfl
  writePos := by
    rintro t _ ⟨rfl, -⟩
    rfl
  updPage := by
    rintro t _ f ⟨rfl, a⟩
    exact ⟨rfl, a.store, a.state, a.stalled, a.txn⟩
  dropConfirm := by
    rintro t _ ⟨rfl, a⟩
    exact ⟨rfl, a.store, a.state, a.stalled, a.txn⟩
  setWritePos := by
    rintro t _ n ⟨rfl, a⟩
    exact ⟨rfl, a.updTxn fun _ => rfl⟩
  skipOrder := by
    rintro t _ ⟨rfl, a⟩
    exact ⟨rfl, a.updTxn fun _ => rfl⟩

theorem State.orderFrame_pageOrder (s : State) (p : PageNum) (kind : Kind) (writePos : Nat) (o : OrderCode)
    (operands : List Byte) : s.OrderFrame (s.pageOrder kind p writePos o operands).state :=
  ((s.orderParallel_frame p).pageOrder ⟨rfl, .refl s⟩ kind writePos o operands).state.2

theorem State.orderFrame_replay (s : State) (p : PageNum) (orders : List (List Byte)) :
    s.OrderFrame (State.replay p s orders).state :=
  ((s.orderParallel_frame p).replay ⟨rfl, .refl s⟩ orders).state.2

end Sys2Proof.Machine

/-! # What leaves the Template Store

The operator's side, the Report Unit and Page Control do not reach the Template Store. -/

namespace Sys2Proof.Machine

section operator

variable (s : State) (p : PageNum)

theorem State.acceptSend_store (id : Nat) : (s.acceptSend p id).store = s.store :=
  State.promote_store _

theorem State.parkKey_store : (s.parkKey p).store = s.store := by
  unfold State.parkKey
  split
  · rfl
  · exact State.promote_store _

/-- A run of keys and frames, beside itself. -/
theorem State.parallel_store : Parallel p fun t t' => t' = t ∧ t.store = s.store where
  alike := by
    rintro t _ ⟨rfl, -⟩
    exact ⟨rfl, rfl, rfl, rfl⟩
  setPage := by
    rintro t _ g ⟨rfl, same⟩ -
    exact ⟨rfl, same⟩
  enterHold := by
    rintro t _ code ⟨rfl, same⟩
    exact ⟨rfl, same⟩
  queueReport := by
    rintro t _ r ⟨rfl, same⟩
    exact ⟨rfl, same⟩
  acceptSend := by
    rintro t _ id ⟨rfl, same⟩ -
    exact ⟨rfl, (State.acceptSend_store _ p id).trans same⟩
  parkKey := by
    rintro t _ ⟨rfl, same⟩ -
    exact ⟨rfl, (State.parkKey_store _ p).trans same⟩
  answerScan := by
    rintro t _ a ⟨rfl, same⟩
    exact ⟨rfl, same⟩
  dropConfirm := by
    rintro t _ ⟨rfl, same⟩
    exact ⟨rfl, same⟩
  awaitConfirm := by
    rintro t _ f characters ⟨rfl, same⟩ - -
    exact ⟨rfl, same⟩

variable {s p} in
theorem State.routeFrame_store (active : s.active = some p) (characters : List Byte) :
    (s.routeFrame p characters).store = s.store :=
  ((s.parallel_store p).routeFrame ⟨rfl, rfl⟩ active characters).2

theorem State.editKey_store (k : Key) : (s.editKey k).store = s.store := by
  cases active : s.active with
  | none =>
    rw [State.editKey_of_noPage active]
    split <;> rfl
  | some p =>
    by_cases reset : k = .reset
    · rw [reset, State.editKey_reset active]
      rfl
    · by_cases hold : (s.page p).hold = none
      · have noticed := (s.parallel_store p).setNotice ⟨rfl, rfl⟩ none
        rw [State.editKey_of_free active hold]
        exact ((s.parallel_store p).actKey noticed active k).2
      · rw [State.editKey_of_hold active hold reset]

theorem State.takeKey_store (b : Byte) : (s.takeKey b).store = s.store := by
  unfold State.takeKey
  split
  · exact s.editKey_store _
  · split
    · split
      · exact State.editKey_store _ _
      · exact s.editKey_store _
      · split
        · exact s.editKey_store _
        · unfold State.queueKey
          split
          · rfl
          · split <;> rfl
    · exact s.editKey_store _

theorem State.judgeFrame_store (length : Nat) (characters : List Byte) :
    (s.judgeFrame length characters).store = s.store := by
  unfold State.judgeFrame
  split
  · simp only
    split
    · split <;> rfl
    · rfl
  · split
    · rfl
    · split
      · rfl
      · split
        · split <;> rfl
        · exact State.routeFrame_store ‹_› _

theorem State.takeInputByte_store (b : Byte) : (s.takeInputByte b).store = s.store := by
  unfold State.takeInputByte
  split
  · split
    · rfl
    · exact s.takeKey_store b
  · split
    · exact State.judgeFrame_store _ _ _
    · rfl
  · simp only
    split
    · exact State.judgeFrame_store _ _ _
    · rfl

theorem State.takeInput_store (codes : List Byte) : (s.takeInput codes).store = s.store := by
  unfold State.takeInput
  induction codes generalizing s with
  | nil => rfl
  | cons b bs ih => exact (ih _).trans (s.takeInputByte_store b)

theorem State.releaseScan_store : s.releaseScan.store = s.store := by
  unfold State.releaseScan
  split
  · rename_i p _ active _
    exact State.routeFrame_store (s := { s with scan.buffer := none }) active _
  · rfl

theorem State.releaseKeys_store (n : Nat) : (State.releaseKeys n s).store = s.store := by
  induction n generalizing s with
  | zero => rfl
  | succ n ih =>
    unfold State.releaseKeys
    split
    · rfl
    · exact (ih _).trans (State.editKey_store _ _)

/-- R95: the release of held input. -/
theorem State.releaseInput_store : s.releaseInput.store = s.store :=
  (State.releaseKeys_store _ _).trans s.releaseScan_store

end operator

section stream

variable (s : State) (t : Transaction)

theorem State.closed_store (next : InterpState) : (s.closed t next).store = s.store := by
  unfold State.closed State.clearMark
  split <;> rfl

/-- R126, R127: the close of a transaction. -/
theorem State.closeTransaction_store (next : InterpState) : (s.closeTransaction t next).store = s.store := by
  rw [State.closeTransaction_closed]
  split
  · exact (State.releaseInput_store _).trans (s.closed_store t next)
  · exact s.closed_store t next

theorem State.handFreed_store : s.handFreed.store = s.store := by
  unfold State.handFreed
  split <;> rfl

theorem State.handFreedTimes_store (n : Nat) : (State.handFreedTimes n s).store = s.store := by
  induction n generalizing s with
  | zero => rfl
  | succ n ih => exact (ih _).trans s.handFreed_store

theorem State.reportLeft_store (r : Report) : (s.reportLeft r).store = s.store := by
  cases r <;> rfl

theorem State.takeReportByte_store : s.takeReportByte.store = s.store := by
  unfold State.takeReportByte
  split
  · rfl
  · split
    · rfl
    · simp only
      split
      · rfl
      · exact (State.handFreed_store _).trans (State.reportLeft_store _ _)

theorem State.handResult_store (result : List (SlotNum × EraseOutcome)) : (s.handResult result).store = s.store := by
  unfold State.handResult
  split <;> rfl

theorem State.expireReply_store (p : PageNum) : (s.expireReply p).store = s.store := by
  unfold State.expireReply State.returnToHead
  split
  · exact State.promote_store _
  · rfl

theorem State.expireConfirm_store : s.expireConfirm.store = s.store := by
  unfold State.expireConfirm
  split
  · rfl
  · simp only
    split <;> rfl

theorem State.refuseHeld_store : s.refuseHeld.store = s.store := by
  unfold State.refuseHeld
  split <;> rfl

/-- R141: RESTART keeps the Template Store. -/
theorem State.restartEnd_store : s.restartEnd.store = s.store := State.refuseHeld_store _

end stream

end Sys2Proof.Machine

/-! # The law of template slots and erase unit

The law is taken apart into what stands of the erase unit by itself, of each slot beside the unit and the STORE in flight,
and where a slot has to be QUEUED. Between two slots of a run none is in work; what stands then is said apart, since the
unit's state is about to change. -/

namespace Sys2Proof.Machine

/-! ## The parts of the law -/

/-- The slot that a header names as a STORE's (R161). -/
def storedSlot (header : List Byte) : Option SlotNum :=
  if header.head?.bind kindOfByte = some .store then slotOfByte ((header.drop 3).getD 0 0x00#8) else none

/-- The slot that the STORE in flight records into (R161). -/
def State.recordingSlot (s : State) : Option SlotNum := s.flyingHeader.bind storedSlot

/-- The law of the erase unit by itself (R167). -/
structure EraseUnit.Law (u : EraseUnit) : Prop where
  batch : u.batch.Nodup ∧ u.batch.length ≤ 8
  idle : u.state = .idle → u.batch = [] ∧ u.result = [] ∧ u.work = none
  gathering : u.state = .gathering → u.work = none ∧ u.result = []
  window : u.window.isSome = true ↔ u.state = .gathering
  working : u.state = .erasing ∨ u.state = .pausing → u.work ≠ none
  attempts : u.attempts ≤ 4 ∧ (u.work ≠ none → u.attempts ≤ 3)
  result : (u.result.map (·.1)).Nodup

/-- The law of slot n beside the erase unit and the slot that a STORE records into (R159, R160, R161, R167). -/
structure Slot.Law (u : EraseUnit) (recorded : Option SlotNum) (n : SlotNum) (x : Slot) : Prop where
  inBatch : x.state.inEraseWork = true → n ∈ u.batch
  erasing : x.state = .erasing ↔ u.work = some n ∧ (u.state = .erasing ∨ u.state = .pausing)
  held : x.state = .held ↔ u.work = some n ∧ u.state = .paused
  result : n ∈ u.result.map (·.1) → n ∈ u.batch ∧ x.state.inEraseWork = false
  used : x.used ≤ 3072 ∧ x.used = (x.content.map (·.length)).sum
  recording : x.state = .recording ↔ recorded = some n

/-- Some slot is QUEUED. -/
def State.SomeQueued (s : State) : Prop := ∃ n k, (s.slot n).state = .queued k

section parts

variable {s t : State}

theorem State.recordingSlot_eq_some {n : SlotNum} : s.recordingSlot = some n ↔
    ∃ t, s.inFlightTxn = some t ∧ t.kind = some .store ∧ slotOfByte (t.operands.getD 0 0x00#8) = some n := by
  have header (t : Transaction) : storedSlot t.header = some n ↔
      t.kind = some .store ∧ slotOfByte (t.operands.getD 0 0x00#8) = some n := Option.ite_none_right_eq_some
  simp only [State.recordingSlot, State.flyingHeader, Option.bind_map, Option.bind_eq_some_iff, Function.comp_apply, header]

theorem State.recordingSlot_of_none (h : s.flyingHeader = none) : s.recordingSlot = none := by
  rw [State.recordingSlot, h, Option.bind_none]

theorem State.lowestQueued_ne_none : s.lowestQueued ≠ none ↔ s.SomeQueued := by
  rw [← Option.isSome_iff_ne_none]
  simp [State.lowestQueued, allSlots, State.SomeQueued, SlotState.isQueued_iff]

theorem State.lowestQueued_some {n : SlotNum} (h : s.lowestQueued = some n) : ∃ k, (s.slot n).state = .queued k :=
  SlotState.isQueued_iff.1 (List.find?_some (p := fun n => (s.slot n).state.isQueued) h)

/-- The law by its parts. -/
theorem State.eraseLaw_iff : s.EraseLaw ↔ s.store.unit.Law ∧
    (s.store.unit.state = .gathering ∨ s.store.unit.state = .paused ∧ s.store.unit.work = none → s.SomeQueued) ∧
    ∀ n, (s.slot n).Law s.store.unit s.recordingSlot n := by
  have queues : s.SomeQueued ↔ s.lowestQueued ≠ none := State.lowestQueued_ne_none.symm
  constructor
  · intro h
    refine ⟨⟨h.batch, h.idle, fun g => ⟨(h.gathering g).1, (h.gathering g).2.1⟩, h.window, h.working, h.attempts,
      h.result.1⟩, fun at_ => queues.2 ?_, fun n => ⟨h.inBatch n, h.erasing n, h.held n, h.result.2 n, h.used n,
        (h.recording n).trans State.recordingSlot_eq_some.symm⟩⟩
    rcases at_ with gathering | ⟨paused, work⟩
    · exact (h.gathering gathering).2.2
    · exact (h.paused paused).resolve_left fun some_ => some_ work
  · rintro ⟨unit, queued, slot⟩
    refine ⟨unit.batch, fun n => (slot n).inBatch, fun n => (slot n).erasing, fun n => (slot n).held, unit.idle,
      fun g => ⟨(unit.gathering g).1, (unit.gathering g).2, queues.1 (queued (.inl g))⟩, unit.window, unit.working,
      fun paused => ?_, unit.attempts, ⟨unit.result, fun n => (slot n).result⟩, fun n => (slot n).used,
      fun n => (slot n).recording.trans State.recordingSlot_eq_some⟩
    by_cases work : s.store.unit.work = none
    · exact .inr (queues.1 (queued (.inr ⟨paused, work⟩)))
    · exact .inl work

/-- The law sees the Template Store and the slot that a STORE records into. -/
theorem State.EraseLaw.congr (h : s.EraseLaw) (store : t.store = s.store) (recorded : t.recordingSlot = s.recordingSlot) :
    t.EraseLaw := by
  rw [State.eraseLaw_iff] at h ⊢
  simpa only [State.SomeQueued, State.slot, store, recorded] using h

/-- A change outside the Template Store and the header in flight. -/
theorem State.EraseLaw.of_same (h : s.EraseLaw) (store : t.store = s.store) (header : t.flyingHeader = s.flyingHeader) :
    t.EraseLaw := h.congr store (by rw [State.recordingSlot, header, State.recordingSlot])

end parts

/-! ## Between two slots of a run -/

/-- The law with no slot in work, whatever the erase unit is doing. -/
structure State.Workless (s : State) : Prop where
  work : s.store.unit.work = none
  batch : s.store.unit.batch.Nodup ∧ s.store.unit.batch.length ≤ 8
  attempts : s.store.unit.attempts ≤ 4
  result : (s.store.unit.result.map (·.1)).Nodup
  slot : ∀ n, (s.slot n).Law s.store.unit s.recordingSlot n

/-- R170: the erase unit at the end of a run, its result still to be handed to the Report Unit. -/
def State.rested (s : State) : State :=
  { s with store.unit := { s.store.unit with state := .idle, batch := [], result := [] } }

section workless

variable {s : State} {n : SlotNum} {u v : EraseUnit} {recorded : Option SlotNum} {x : Slot}

theorem State.EraseLaw.workless (h : s.EraseLaw) (work : s.store.unit.work = none) : s.Workless := by
  obtain ⟨unit, -, slot⟩ := State.eraseLaw_iff.1 h
  exact ⟨work, unit.batch, unit.attempts.1, unit.result, slot⟩

/-- Beside the batch and the result a slot sees of the unit whether it is in work, and where. -/
theorem Slot.Law.congr (h : x.Law u recorded n) (batch : v.batch = u.batch) (result : v.result = u.result)
    (erasing : (v.work = some n ∧ (v.state = .erasing ∨ v.state = .pausing)) ↔
      u.work = some n ∧ (u.state = .erasing ∨ u.state = .pausing))
    (held : (v.work = some n ∧ v.state = .paused) ↔ u.work = some n ∧ u.state = .paused) : x.Law v recorded n :=
  ⟨batch ▸ h.inBatch, h.erasing.trans erasing.symm, h.held.trans held.symm, by rw [batch, result]; exact h.result, h.used,
    h.recording⟩

/-- A slot that is not in work sees the batch and the result alone. -/
theorem Slot.Law.congr_of_idle (h : x.Law u recorded n) (batch : v.batch = u.batch) (result : v.result = u.result)
    (before : u.work ≠ some n) (after : v.work ≠ some n) : x.Law v recorded n :=
  h.congr batch result (iff_of_false (fun e => after e.1) fun e => before e.1)
    (iff_of_false (fun e => after e.1) fun e => before e.1)

/-- R160: a QUEUED slot is in the batch, without a result, and no STORE records into it. -/
theorem Slot.Law.of_queued {k : KeptState} (h : x.Law u recorded n) (queued : x.state = .queued k) :
    n ∈ u.batch ∧ n ∉ u.result.map (·.1) ∧ recorded ≠ some n := by
  refine ⟨h.inBatch (by simp [queued, SlotState.inEraseWork]), fun listed => ?_, fun here => ?_⟩
  · have off := (h.result listed).2
    simp [queued, SlotState.inEraseWork] at off
  · have recording := h.recording.2 here
    simp [queued] at recording

/-- R160: so is the slot in work. -/
theorem Slot.Law.of_working (h : x.Law u recorded n) (working : x.state = .erasing ∨ x.state = .held) :
    n ∈ u.batch ∧ n ∉ u.result.map (·.1) ∧ recorded ≠ some n := by
  have work : x.state.inEraseWork = true := by rcases working with e | e <;> simp [e, SlotState.inEraseWork]
  refine ⟨h.inBatch work, fun listed => ?_, fun here => ?_⟩
  · have off := (h.result listed).2
    simp [work] at off
  · have recording := h.recording.2 here
    rcases working with e | e <;> simp [e] at recording

/-- R169, R170, R173: a QUEUED slot becomes the slot in work. -/
theorem State.Workless.startSlot {k : KeptState} (h : s.Workless) (window : s.store.unit.window = none)
    (queued : (s.slot n).state = .queued k) : (s.startSlot n).EraseLaw := by
  have unit : (s.startSlot n).store.unit = { s.store.unit with state := .erasing, work := some n, attempts := 0 } := rfl
  refine State.eraseLaw_iff.2 ⟨?_, ?_, fun m => ?_⟩
  · rw [unit]
    exact ⟨h.batch, nofun, nofun, by simp [window], nofun, by simp, h.result⟩
  · rw [unit]
    simp
  · have slot : (s.startSlot n).slot m = if m = n then (s.slot n).become .erasing else s.slot m :=
      State.slot_updSlot _ n m _
    have law := h.slot m
    have recorded : (s.startSlot n).recordingSlot = s.recordingSlot := rfl
    rw [slot, unit, recorded]
    split
    · subst_vars
      obtain ⟨batch, result, recording⟩ := law.of_queued queued
      exact ⟨fun _ => batch, by simp [Slot.become], by simp [Slot.become], fun listed => absurd listed result, law.used,
        iff_of_false nofun recording⟩
    · rename_i other
      exact law.congr_of_idle rfl rfl (by simp [h.work]) (by simpa using Ne.symm other)

/-- R172: with work left the unit rests in PAUSED. -/
theorem State.Workless.pause {unit : EraseUnit} (h : s.Workless) (some_ : s.SomeQueued)
    (rests : unit = { s.store.unit with state := .paused, window := none, work := none }) :
    State.EraseLaw { s with store.unit := unit } := by
  subst rests
  exact State.eraseLaw_iff.2 ⟨⟨h.batch, nofun, nofun, by simp, by simp, ⟨h.attempts, by simp⟩, h.result⟩,
    fun _ => some_, fun m => (h.slot m).congr_of_idle rfl rfl (by simp [h.work]) nofun⟩

/-- R160: with no slot QUEUED and none in work, no slot is in erase work. -/
theorem State.Workless.idle (h : s.Workless) (none_ : ¬s.SomeQueued) (n : SlotNum) :
    (s.slot n).state.inEraseWork = false := by
  have erasing := mt (h.slot n).erasing.1
  have held := mt (h.slot n).held.1
  cases state : (s.slot n).state with
  | queued k => exact absurd ⟨n, k, state⟩ none_
  | erasing => exact absurd state (erasing (by simp [h.work]))
  | held => exact absurd state (held (by simp [h.work]))
  | blank | recording | filled | failed => rfl

/-- R170: with no slot QUEUED the run ends. -/
theorem State.Workless.endRun (h : s.Workless) (window : s.store.unit.window = none) (none_ : ¬s.SomeQueued) :
    s.endRun.EraseLaw := by
  have rested : s.rested.EraseLaw := by
    refine State.eraseLaw_iff.2 ⟨⟨by simp [State.rested], fun _ => ⟨rfl, rfl, h.work⟩, nofun, by simp [State.rested, window],
      by simp [State.rested], ⟨h.attempts, fun some_ => absurd h.work some_⟩, by simp [State.rested]⟩,
      by simp [State.rested], fun n => ?_⟩
    have slot := h.slot n
    have off := h.idle none_ n
    exact ⟨fun work => absurd (off.symm.trans work) nofun, slot.erasing.trans (by simp [h.work, State.rested]),
      slot.held.trans (by simp [h.work, State.rested]), nofun, slot.used, slot.recording⟩
  exact rested.of_same (s.rested.handResult_store _) (State.quiet_handResult _ _).header

/-- R170: the next slot, or the end of the run. -/
theorem State.Workless.nextSlot (h : s.Workless) (window : s.store.unit.window = none) : s.nextSlot.EraseLaw := by
  cases lowest : s.lowestQueued with
  | some n =>
    obtain ⟨k, queued⟩ := State.lowestQueued_some lowest
    rw [(State.nextSlot_of_some lowest).1]
    exact h.startSlot window queued
  | none =>
    rw [(State.nextSlot_of_none lowest).1]
    exact h.endRun window (mt State.lowestQueued_ne_none.2 (by simp [lowest]))

/-- R172: the rest in PAUSED, or the end of the run. -/
theorem State.Workless.restUnit (h : s.Workless) (window : s.store.unit.window = none) : s.restUnit.EraseLaw := by
  cases lowest : s.lowestQueued with
  | some n =>
    rw [(State.nextSlot_of_some lowest).2]
    exact h.pause (State.lowestQueued_ne_none.1 (by simp [lowest])) (by rw [← window, ← h.work])
  | none =>
    rw [(State.nextSlot_of_none lowest).2]
    exact h.endRun window (mt State.lowestQueued_ne_none.2 (by simp [lowest]))

end workless

end Sys2Proof.Machine

namespace Sys2Proof.Machine

/-! ## The erase unit's events -/

section events

variable {s t : State} {n : SlotNum}

/-- R167: the window runs in GATHERING alone. -/
theorem State.EraseLaw.window_none (h : s.EraseLaw) (other : s.store.unit.state ≠ .gathering) :
    s.store.unit.window = none := by
  have runs := mt h.window.1 other
  simpa using runs

/-- R160: while the unit is ERASING or PAUSING its slot in work is ERASING. -/
theorem State.EraseLaw.slot_erasing (h : s.EraseLaw) (work : s.store.unit.work = some n)
    (busy : s.store.unit.state = .erasing ∨ s.store.unit.state = .pausing) : (s.slot n).state = .erasing :=
  (h.erasing n).2 ⟨work, busy⟩

/-- R170: the slot in work is finished, blank or given up. -/
theorem State.EraseLaw.finish {x : Slot} {outcome : EraseOutcome} {attempts : Nat} (h : s.EraseLaw)
    (work : s.store.unit.work = some n) (busy : s.store.unit.state = .erasing ∨ s.store.unit.state = .pausing)
    (unit : t.store.unit = { s.store.unit with
      work := none, attempts := attempts, result := s.store.unit.result ++ [(n, outcome)] })
    (slot : ∀ m, t.slot m = if m = n then x else s.slot m) (header : t.flyingHeader = s.flyingHeader)
    (few : attempts ≤ 4) (off : x.state = .blank ∨ x.state = .failed)
    (used : x.used ≤ 3072 ∧ x.used = (x.content.map (·.length)).sum) : t.Workless := by
  obtain ⟨law, -, slots⟩ := State.eraseLaw_iff.1 h
  obtain ⟨batch, fresh, recording⟩ := (slots n).of_working (.inl (h.slot_erasing work busy))
  have recorded : t.recordingSlot = s.recordingSlot := by rw [State.recordingSlot, header, State.recordingSlot]
  have idle : x.state.inEraseWork = false := by rcases off with e | e <;> simp [e, SlotState.inEraseWork]
  refine ⟨by rw [unit], by rw [unit]; exact law.batch, by rw [unit]; exact few, ?_, fun m => ?_⟩
  · rw [unit, List.map_append, List.map_singleton, List.nodup_append]
    exact ⟨law.result, List.nodup_singleton n, by simpa using fun a b m e => fresh (List.mem_map.2 ⟨(a, b), m, e⟩)⟩
  · have other := slots m
    rw [unit, slot, recorded]
    split
    · subst_vars
      refine ⟨fun works => absurd (idle.symm.trans works) nofun, iff_of_false ?_ nofun, iff_of_false ?_ nofun,
        fun _ => ⟨batch, idle⟩, used, iff_of_false ?_ recording⟩
      all_goals rcases off with e | e <;> simp [e]
    · rename_i ne
      have elsewhere : s.store.unit.work ≠ some m := by rw [work]; simpa using Ne.symm ne
      refine ⟨other.inBatch, other.erasing.trans (iff_of_false (fun e => elsewhere e.1) nofun),
        other.held.trans (iff_of_false (fun e => elsewhere e.1) nofun), fun listed => other.result ?_, other.used,
        other.recording⟩
      simpa [ne] using listed

theorem State.EraseLaw.passSlot (h : s.EraseLaw) (work : s.store.unit.work = some n)
    (busy : s.store.unit.state = .erasing ∨ s.store.unit.state = .pausing) : (s.passSlot n).Workless :=
  h.finish (x := erasedSlot) work busy rfl (fun m => State.slot_updSlot _ n m _) rfl h.attempts.1 (.inl rfl) ⟨by decide, rfl⟩

theorem State.EraseLaw.giveUpSlot (h : s.EraseLaw) (work : s.store.unit.work = some n)
    (busy : s.store.unit.state = .erasing ∨ s.store.unit.state = .pausing) : (s.giveUpSlot n).Workless :=
  h.finish (x := (s.slot n).become .failed) work busy rfl (fun m => State.slot_updSlot _ n m _) rfl (Nat.le_refl 4) (.inr rfl) (h.used n)

/-- R172, R173: the slot in work is held while the unit is PAUSED, and goes on being erased after. -/
theorem State.EraseLaw.rework {unit : EraseUnit} {state : SlotState} (h : s.EraseLaw)
    (work : s.store.unit.work = some n) (batch : unit.batch = s.store.unit.batch)
    (result : unit.result = s.store.unit.result) (window : unit.window = none) (same : unit.work = some n)
    (attempts : unit.attempts ≤ 3)
    (states : unit.state = .paused ∧ state = .held ∨ unit.state = .erasing ∧ state = .erasing)
    (before : (s.slot n).state = .erasing ∨ (s.slot n).state = .held) :
    (State.updSlot { s with store.unit := unit } n (·.become state)).EraseLaw := by
  obtain ⟨law, -, slots⟩ := State.eraseLaw_iff.1 h
  obtain ⟨inBatch, fresh, recording⟩ := (slots n).of_working before
  have unit' : (State.updSlot { s with store.unit := unit } n (·.become state)).store.unit = unit := rfl
  refine State.eraseLaw_iff.2 ⟨?_, ?_, fun m => ?_⟩
  · rw [unit']
    refine ⟨batch ▸ law.batch, ?_, ?_, ?_, fun _ => by simp [same], ⟨attempts.trans (by decide), fun _ => attempts⟩, result ▸ law.result⟩
    all_goals rcases states with ⟨e, -⟩ | ⟨e, -⟩ <;> simp [e, window]
  · rw [unit', same]
    rcases states with ⟨e, -⟩ | ⟨e, -⟩ <;> simp [e]
  · have other := slots m
    have slot := State.slot_updSlot { s with store.unit := unit } n m (·.become state)
    have recorded : (State.updSlot { s with store.unit := unit } n (·.become state)).recordingSlot = s.recordingSlot := rfl
    rw [unit', slot, recorded]
    split
    · subst_vars
      refine ⟨fun _ => batch ▸ inBatch, ?_, ?_, fun listed => absurd (result ▸ listed) fresh, other.used,
        iff_of_false ?_ recording⟩
      all_goals rcases states with ⟨e, e'⟩ | ⟨e, e'⟩ <;> simp [e, e', same, Slot.become]
    · rename_i ne
      exact other.congr_of_idle batch result (by rw [work]; simpa using Ne.symm ne) (by rw [same]; simpa using Ne.symm ne)

/-- R171, R172: the attempt goes on, or is tried again, with the slot in work as it is. -/
theorem State.EraseLaw.carryOn {unit : EraseUnit} (h : s.EraseLaw) (batch : unit.batch = s.store.unit.batch)
    (result : unit.result = s.store.unit.result) (window : unit.window = none)
    (work : unit.work = s.store.unit.work) (attempts : unit.attempts ≤ 3)
    (busy : s.store.unit.state = .erasing ∨ s.store.unit.state = .pausing)
    (busy' : unit.state = .erasing ∨ unit.state = .pausing) : State.EraseLaw { s with store.unit := unit } := by
  obtain ⟨law, -, slots⟩ := State.eraseLaw_iff.1 h
  have some_ := law.working busy
  have notPaused {u : EraseUnit} (b : u.state = .erasing ∨ u.state = .pausing) :
      u.state ≠ .idle ∧ u.state ≠ .gathering ∧ u.state ≠ .paused := by rcases b with e | e <;> simp [e]
  obtain ⟨idle, gathering, paused⟩ := notPaused busy'
  obtain ⟨-, -, paused'⟩ := notPaused busy
  refine State.eraseLaw_iff.2 ⟨⟨batch ▸ law.batch, fun e => absurd e idle, fun e => absurd e gathering,
    by simp [window, gathering], fun _ => work ▸ some_, ⟨attempts.trans (by decide), fun _ => attempts⟩, result ▸ law.result⟩,
    fun e => ?_, fun m => (slots m).congr batch result (by simp [work, busy, busy']) (by simp [paused, paused'])⟩
  rcases e with e | ⟨e, -⟩
  · exact absurd e gathering
  · exact absurd e paused

theorem State.EraseLaw.holdSlot {attempts : Nat} (h : s.EraseLaw) (work : s.store.unit.work = some n)
    (pausing : s.store.unit.state = .pausing) (few : attempts ≤ 3) : (s.holdSlot n attempts).EraseLaw :=
  h.rework work rfl rfl (h.window_none (by simp [pausing])) work few (.inl ⟨rfl, rfl⟩)
    (.inl (h.slot_erasing work (.inr pausing)))

/-- R170, R172: the end of an attempt. -/
theorem State.EraseLaw.endAttempt (h : s.EraseLaw) (ending : Sys2Proof.Ending) : (s.endAttempt ending).EraseLaw := by
  unfold State.endAttempt
  split
  · exact h
  · rename_i n work
    have few : s.store.unit.attempts ≤ 3 := h.attempts.2 (by simp [work])
    simp only
    split
    · rename_i erasing
      exact (h.passSlot work (.inl erasing)).nextSlot (h.window_none (by simp [erasing]))
    · rename_i erasing
      have window := h.window_none (by simp [erasing])
      split
      · exact h.carryOn rfl rfl window rfl (by assumption) (.inl erasing) (.inl erasing)
      · exact (h.giveUpSlot work (.inl erasing)).nextSlot window
    · exact h.holdSlot work ‹_› few
    · rename_i pausing
      exact (h.passSlot work (.inr pausing)).restUnit (h.window_none (by simp [pausing]))
    · rename_i pausing
      split
      · exact h.holdSlot work pausing (by assumption)
      · exact (h.giveUpSlot work (.inr pausing)).restUnit (h.window_none (by simp [pausing]))
    all_goals exact h

/-- R169: the window's expiry. -/
theorem State.EraseLaw.endGathering (h : s.EraseLaw) : s.endGathering.EraseLaw := by
  unfold State.endGathering
  split
  · rename_i n gathering lowest
    obtain ⟨k, queued⟩ := State.lowestQueued_some lowest
    obtain ⟨work, batch, attempts, result, slot⟩ := h.workless (h.gathering gathering).1
    have closed : State.Workless { s with store.unit.window := none } :=
      ⟨work, batch, attempts, result, fun m => (slot m).congr rfl rfl .rfl .rfl⟩
    exact closed.startSlot rfl queued
  · exact h

/-- R171: PAUSE. -/
theorem State.EraseLaw.pauseUnit (h : s.EraseLaw) (accepted : s.pauseUnit = some t) : t.EraseLaw := by
  unfold State.pauseUnit at accepted
  split at accepted
  · cases accepted
  · rename_i gathering
    cases accepted
    obtain ⟨work, -, lowest⟩ := h.gathering gathering
    exact (h.workless work).pause (State.lowestQueued_ne_none.1 lowest) rfl
  · rename_i erasing
    cases accepted
    obtain ⟨law, -, -⟩ := State.eraseLaw_iff.1 h
    exact h.carryOn rfl rfl (h.window_none (by simp [erasing])) rfl (law.attempts.2 (law.working (.inl erasing)))
      (.inl erasing) (.inr rfl)
  · cases accepted
    exact h
  · cases accepted
    exact h

/-- R173: RESUME. -/
theorem State.EraseLaw.resumeUnit (h : s.EraseLaw) (accepted : s.resumeUnit = some t) : t.EraseLaw := by
  unfold State.resumeUnit at accepted
  split at accepted
  · rename_i paused
    have window := h.window_none (by simp [paused])
    split at accepted
    · rename_i n work
      cases accepted
      exact h.rework work rfl rfl window work (h.attempts.2 (by simp [work])) (.inr ⟨rfl, rfl⟩)
        (.inr ((h.held n).2 ⟨work, paused⟩))
    · rename_i work lowest
      cases accepted
      obtain ⟨k, queued⟩ := State.lowestQueued_some lowest
      exact (h.workless work).startSlot window queued
    · cases accepted
      exact h
  all_goals cases accepted

end events

end Sys2Proof.Machine

namespace Sys2Proof.Machine

/-! ## STORE -/

section store

variable {s t : State} {n : SlotNum}

/-- Some slot stays QUEUED when a slot that is not QUEUED is changed. -/
theorem State.SomeQueued.updSlot (h : s.SomeQueued) (f : Slot → Slot) (off : ∀ k, (s.slot n).state ≠ .queued k) :
    (s.updSlot n f).SomeQueued := by
  obtain ⟨m, k, queued⟩ := h
  have ne : m ≠ n := by
    rintro rfl
    exact off k queued
  exact ⟨m, k, by rw [State.slot_updSlot, if_neg ne, queued]⟩

/-- A slot outside erase work is changed and stays outside it; another slot than n records before and after only if it did. -/
theorem State.EraseLaw.updSlot {f : Slot → Slot} (h : s.EraseLaw) (store : t.store = (s.updSlot n f).store)
    (before : (s.slot n).state.inEraseWork = false) (after : (f (s.slot n)).state.inEraseWork = false)
    (used : (f (s.slot n)).used ≤ 3072 ∧ (f (s.slot n)).used = ((f (s.slot n)).content.map (·.length)).sum)
    (recording : (f (s.slot n)).state = .recording ↔ t.recordingSlot = some n)
    (others : ∀ m, m ≠ n → (t.recordingSlot = some m ↔ s.recordingSlot = some m)) : t.EraseLaw := by
  obtain ⟨law, queued, slots⟩ := State.eraseLaw_iff.1 h
  have unit : t.store.unit = s.store.unit := by rw [store, State.updSlot_store_unit]
  have slot (m : SlotNum) : t.slot m = if m = n then f (s.slot n) else s.slot m := by
    rw [← State.slot_updSlot, State.slot, State.slot, store]
  refine State.eraseLaw_iff.2 ⟨unit ▸ law, fun rests => ?_, fun m => ?_⟩
  · obtain ⟨m, k, there⟩ := (queued (unit ▸ rests)).updSlot (n := n) f fun k e => by
      simp [e, SlotState.inEraseWork] at before
    exact ⟨m, k, by rw [slot, ← State.slot_updSlot, there]⟩
  · have other := slots m
    rw [unit, slot]
    split
    · subst_vars
      have same {x : SlotState} (works : x.inEraseWork = true) :
          (f (s.slot m)).state = x ↔ (s.slot m).state = x := by
        refine iff_of_false ?_ ?_
        · rintro rfl
          rw [after] at works
          cases works
        · rintro rfl
          rw [before] at works
          cases works
      exact ⟨fun works => absurd (after.symm.trans works) nofun, (same rfl).trans other.erasing,
        (same rfl).trans other.held, fun listed => ⟨(other.result listed).1, after⟩, used, recording⟩
    · rename_i ne
      exact ⟨other.inBatch, other.erasing, other.held, other.result, other.used, other.recording.trans (others m ne).symm⟩

theorem State.EraseLaw.not_inEraseWork_of_recording (h : s.EraseLaw) (recording : s.recordingSlot = some n) :
    (s.slot n).state.inEraseWork = false := by
  obtain ⟨-, -, slots⟩ := State.eraseLaw_iff.1 h
  rw [(slots n).recording.2 recording]
  rfl

/-- The slot that the STORE in flight records into, if there is one, is settled (R127, R164). -/
def State.settleRecording (s : State) (state : SlotState) : State :=
  match s.recordingSlot with
  | some n => s.updSlot n (·.become state)
  | none => s

/-- R127, R164: the end of a STORE, or of another transaction. -/
theorem State.EraseLaw.settleRecording {state : SlotState} (h : s.EraseLaw) (kept : state = .filled ∨ state = .failed)
    (store : t.store = (s.settleRecording state).store) (closed : t.flyingHeader = none) : t.EraseLaw := by
  have none_ := State.recordingSlot_of_none closed
  unfold State.settleRecording at store
  split at store
  · rename_i n recording
    refine h.updSlot store (h.not_inEraseWork_of_recording recording) ?_ (h.used n) ?_ fun m ne => ?_
    · rcases kept with rfl | rfl <;> rfl
    · rcases kept with rfl | rfl <;> simp [none_, Slot.become]
    · simpa [none_, recording] using Ne.symm ne
  · rename_i off
    exact h.congr store (none_.trans off.symm)

/-- R161: an accepted STORE. -/
theorem State.EraseLaw.beginStore {label : List Byte} (h : s.EraseLaw) (idle : s.recordingSlot = none)
    (blank : (s.slot n).state = .blank) (store : t.store = (s.beginStore n label).store)
    (flying : t.recordingSlot = some n) : t.EraseLaw :=
  h.updSlot store (by rw [blank]; rfl) rfl ⟨Nat.zero_le _, rfl⟩ (iff_of_true rfl flying)
    fun m ne => by simpa [flying, idle] using Ne.symm ne

/-- R162, R163: an order recorded. -/
theorem State.EraseLaw.recordOrder {o : OrderCode} {operands : List Byte} (h : s.EraseLaw)
    (flying : s.recordingSlot = some n) : (s.recordOrder n o operands).state.EraseLaw := by
  unfold State.recordOrder
  split
  · exact h
  · simp only
    split
    · exact h
    · rename_i room
      obtain ⟨-, -, slots⟩ := State.eraseLaw_iff.1 h
      have recording := h.not_inEraseWork_of_recording flying
      have used := (h.used n).2
      refine h.updSlot (f := fun slot => { slot with
        content := slot.content ++ [o.code :: operands], used := slot.used + (o.code :: operands).length })
        rfl recording recording ⟨Nat.not_lt.1 room, ?_⟩ (slots n).recording fun _ _ => .rfl
      simp [used]

end store

/-! ## ERASE -/

section erase

variable {s : State} {n : SlotNum} {prior : KeptState}

/-- R168: a kept state is outside erase work, and no state of recording. -/
theorem SlotState.of_kept {x : SlotState} (kept : x.kept = some prior) :
    x.inEraseWork = false ∧ x ≠ .recording ∧ ∀ k, x ≠ .queued k := by
  cases x <;> simp_all [SlotState.kept, SlotState.inEraseWork]

/-- R168: a slot joins the batch before the unit has a result. -/
theorem State.Workless.enrol (h : s.Workless) (fresh : s.store.unit.result = []) (absent : n ∉ s.store.unit.batch)
    (kept : (s.slot n).state.kept = some prior) (room : s.store.unit.batch.length < 8) :
    (s.enrol n prior).Workless := by
  obtain ⟨-, notRecording, -⟩ := SlotState.of_kept kept
  have unit : (s.enrol n prior).store.unit = { s.store.unit with batch := s.store.unit.batch ++ [n] } := rfl
  refine ⟨h.work, ?_, h.attempts, h.result, fun m => ?_⟩
  · rw [unit]
    simp only [List.length_append, List.length_singleton, List.nodup_append, List.nodup_singleton, true_and]
    exact ⟨⟨h.batch.1, fun a ha b hb e => absent (List.mem_singleton.1 hb ▸ e ▸ ha)⟩, room⟩
  · have law := h.slot m
    have recorded : (s.enrol n prior).recordingSlot = s.recordingSlot := rfl
    rw [State.slot_enrol, unit, recorded]
    split
    · subst_vars
      exact ⟨fun _ => by simp, by simp [Slot.become, h.work], by simp [Slot.become, h.work], by simp [fresh], law.used,
        iff_of_false nofun (mt law.recording.2 notRecording)⟩
    · exact ⟨fun works => List.mem_append_left _ (law.inBatch works), law.erasing, law.held, by simp [fresh], law.used,
        law.recording⟩

theorem State.SomeQueued.enrol (h : s.SomeQueued) (kept : (s.slot n).state.kept = some prior) :
    (s.enrol n prior).SomeQueued :=
  State.SomeQueued.updSlot (s := { s with store.unit.batch := s.store.unit.batch ++ [n] }) h _ (SlotState.of_kept kept).2.2

/-- R168: a listed slot stays as it is, or joins the batch. -/
theorem State.eraseSlot_cases (s : State) (n : SlotNum) : (s.eraseSlot n).1 = s ∨
    ∃ prior, n ∉ s.store.unit.batch ∧ (s.slot n).state.kept = some prior ∧ s.store.unit.batch.length < 8 ∧
      (s.eraseSlot n).1 = s.enrol n prior := by
  by_cases absent : n ∈ s.store.unit.batch
  · exact .inl (by rw [State.eraseSlot_of_mem absent])
  · cases kept : (s.slot n).state.kept with
    | none => exact .inl (by rw [State.eraseSlot_of_unkept absent kept])
    | some prior =>
      by_cases room : s.store.unit.batch.length < 8
      · exact .inr ⟨prior, absent, rfl, room, by rw [State.eraseSlot_of_room absent kept room]⟩
      · exact .inl (by rw [State.eraseSlot_of_full absent (Nat.not_lt.1 room)])

/-- R168: what an ERASE's slots leave of the law, one after another. -/
theorem State.Workless.eraseSlots (h : s.Workless) (fresh : s.store.unit.result = []) (ns : List SlotNum) :
    (State.eraseSlots s ns).1.Workless ∧ (State.eraseSlots s ns).1.store.unit.result = [] ∧
      (s.SomeQueued → (State.eraseSlots s ns).1.SomeQueued) := by
  induction ns generalizing s with
  | nil => exact ⟨h, fresh, id⟩
  | cons n ns ih =>
    simp only [State.eraseSlots]
    rcases s.eraseSlot_cases n with same | ⟨prior, absent, kept, room, same⟩
    · rw [same]
      exact ih h fresh
    · rw [same]
      obtain ⟨law, empty, queued⟩ := ih (h.enrol fresh absent kept room) fresh
      exact ⟨law, empty, fun some_ => queued (some_.enrol kept)⟩

/-- R168: outside erase work and a STORE every slot is kept. -/
theorem SlotState.kept_of_idle {x : SlotState} (idle : x.inEraseWork = false) (recording : x ≠ .recording) :
    ∃ prior, x.kept = some prior := by
  cases x <;> simp_all [SlotState.kept, SlotState.inEraseWork]

/-- R168: with no run under way the first slot of the list is QUEUED. -/
theorem State.Workless.someQueued_eraseSlots (h : s.Workless) (empty : s.store.unit.batch = [])
    (fresh : s.store.unit.result = []) (off : s.recordingSlot = none) (n : SlotNum) (ns : List SlotNum) :
    (State.eraseSlots s (n :: ns)).1.SomeQueued := by
  have law := h.slot n
  have absent : n ∉ s.store.unit.batch := by simp [empty]
  have room : s.store.unit.batch.length < 8 := by simp [empty]
  obtain ⟨prior, kept⟩ := SlotState.kept_of_idle (by simpa using mt law.inBatch absent)
    (mt law.recording.1 (by simp [off]))
  simp only [State.eraseSlots, State.eraseSlot_of_room absent kept room]
  refine ((h.enrol fresh absent kept room).eraseSlots fresh ns).2.2 ⟨n, prior, ?_⟩
  rw [State.slot_enrol, if_pos rfl]
  rfl

/-- R168: the run begins, or its window restarts. -/
theorem State.Workless.gather (h : s.Workless) (open_ : s.store.unit.state = .idle ∨ s.store.unit.state = .gathering)
    (fresh : s.store.unit.result = []) (queued : s.SomeQueued) : s.gather.EraseLaw := by
  rw [State.gather_eq open_, fresh, ite_self]
  exact State.eraseLaw_iff.2 ⟨⟨h.batch, nofun, fun _ => ⟨h.work, rfl⟩, by simp, by simp, ⟨h.attempts, fun e => absurd h.work e⟩,
    by simp⟩, fun _ => queued, fun m => (h.slot m).congr_of_idle rfl fresh.symm (by simp [h.work]) (by simp [h.work])⟩

/-- R168: an accepted ERASE. -/
theorem State.EraseLaw.acceptErase {slots : List Byte} (h : s.EraseLaw) (off : s.recordingSlot = none)
    (some_ : slots ≠ []) (accepted : s.eraseRefusal slots = none) : (s.acceptErase slots).1.EraseLaw := by
  have open_ : s.store.unit.state = .idle ∨ s.store.unit.state = .gathering := by
    unfold State.eraseRefusal at accepted
    split at accepted <;> simp_all
  have named : slots.find? (fun b => (slotOfByte b).isNone) = none := by
    simpa [State.eraseRefusal_open open_] using accepted
  obtain ⟨b, bs, rfl⟩ := List.exists_cons_of_ne_nil some_
  obtain ⟨n, first⟩ : ∃ n, slotOfByte b = some n := by
    simpa [Option.ne_none_iff_exists'] using List.find?_eq_none.1 named b (by simp)
  have listed : (b :: bs).filterMap slotOfByte = n :: bs.filterMap slotOfByte := List.filterMap_cons_some first
  have state (ns : List SlotNum) : (State.eraseSlots s ns).1.store.unit.state = s.store.unit.state := by
    rw [(s.eraseSlots_enrolled ns).1.frame]
  rw [State.acceptErase, listed]
  rcases open_ with idle | gathering
  · obtain ⟨empty, fresh, work⟩ := h.idle idle
    have law := h.workless work
    obtain ⟨erased, fresh', -⟩ := law.eraseSlots fresh (n :: bs.filterMap slotOfByte)
    exact erased.gather (.inl ((state _).trans idle)) fresh' (law.someQueued_eraseSlots empty fresh off _ _)
  · obtain ⟨work, fresh, lowest⟩ := h.gathering gathering
    obtain ⟨erased, fresh', queued⟩ := (h.workless work).eraseSlots fresh (n :: bs.filterMap slotOfByte)
    exact erased.gather (.inr ((state _).trans gathering)) fresh' (queued (State.lowestQueued_ne_none.1 lowest))

end erase

end Sys2Proof.Machine

namespace Sys2Proof.Machine

/-! ## Ends of transactions -/

section ends

variable {s u : State} {t : Transaction} {n : SlotNum}

theorem State.recordingSlot_of_flying (flying : s.flyingHeader = some t.header) :
    s.recordingSlot = if t.kind = some .store then slotOfByte (t.operands.getD 0 0x00#8) else none := by
  rw [State.recordingSlot, flying]
  rfl

theorem State.recordingSlot_of_store (flying : s.flyingHeader = some t.header) (kind : t.kind = some .store) :
    s.recordingSlot = slotOfByte (t.operands.getD 0 0x00#8) := by
  rw [State.recordingSlot_of_flying flying, if_pos kind]

theorem State.settleRecording_of_kind {state : SlotState} (flying : s.flyingHeader = some t.header)
    (kind : t.kind ≠ some .store) : s.settleRecording state = s := by
  rw [State.settleRecording, State.recordingSlot_of_flying flying, if_neg kind]

/-- R164: END fills the slot of a STORE, and no other kind's END reaches the Template Store. -/
theorem State.endEffects_store (flying : s.flyingHeader = some t.header) :
    (s.endEffects t).store = (s.settleRecording .filled).store := by
  by_cases kind : t.kind = some .store
  · cases named : slotOfByte (t.operands.getD 0 0x00#8) <;>
      simp only [State.endEffects, kind, named, State.settleRecording, State.recordingSlot_of_store flying kind]
  · rw [State.settleRecording_of_kind flying kind]
    unfold State.endEffects
    simp only
    split
    · exact State.promote_store _
    · exact State.promote_store _
    · rfl
    · rfl
    · exact s.restartEnd_store
    · rename_i store
      exact absurd store kind
    · rfl

/-- R127: an abort fails the slot of a STORE, and no other kind's abort reaches the Template Store. -/
theorem State.abortEffects_store (flying : s.flyingHeader = some t.header) :
    (s.abortEffects t).store = (s.settleRecording .failed).store := by
  by_cases kind : t.kind = some .store
  · cases named : slotOfByte (t.operands.getD 0 0x00#8) <;>
      simp only [State.abortEffects, kind, named, State.settleRecording, State.recordingSlot_of_store flying kind]
  · rw [State.settleRecording_of_kind flying kind]
    unfold State.abortEffects
    split
    · rfl
    · rename_i store
      exact absurd store kind
    · rfl

theorem State.EraseLaw.reachEnd (h : s.EraseLaw) (flying : s.flyingHeader = some t.header) :
    (s.reachEnd t).EraseLaw := by
  refine h.settleRecording (.inl rfl) ?_ (State.flyingHeader_closeTransaction _ _ _)
  rw [← State.endEffects_store flying]
  exact (State.closeTransaction_store _ _ _).trans (State.answer_store _ _)

theorem State.EraseLaw.abort (h : s.EraseLaw) (flying : s.flyingHeader = some t.header) (status : Status) (detail : Nat)
    (next : InterpState) : (s.abort t status detail next).EraseLaw := by
  refine h.settleRecording (.inr rfl) ?_ (State.flyingHeader_closeTransaction _ _ _)
  rw [← State.abortEffects_store flying]
  exact (State.closeTransaction_store _ _ _).trans (State.answer_store _ _)

/-- A change of the interpreter with no transaction in flight before or after. -/
theorem State.EraseLaw.interp {i : InterpState} {r : Option Transaction} (h : s.EraseLaw) (idle : s.flyingHeader = none)
    (off : i = .orders → r = none) : State.EraseLaw { s with interp.state := i, interp.txn := r } :=
  h.of_same rfl (State.quiet_interp idle off).header

end ends

/-! ## Headers -/

section headers

variable {s : State} {t : Transaction}

/-- R123: a refused header. -/
theorem State.EraseLaw.refuse (h : s.EraseLaw) (idle : s.flyingHeader = none) (status : Status) (detail : Nat) :
    (s.refuse t status detail).EraseLaw :=
  h.of_same (State.answer_store _ _) ((State.flyingHeader_of_noTxn rfl).trans idle.symm)

theorem State.flyingHeader_accept (s : State) (t : Transaction) : (s.accept t).flyingHeader = some t.header :=
  State.flyingHeader_of_orders rfl rfl

/-- R123: an accepted header of another kind than STORE. -/
theorem State.EraseLaw.accept (h : s.EraseLaw) (off : s.recordingSlot = none) (kind : t.kind ≠ some .store) :
    (s.accept t).EraseLaw :=
  h.congr rfl (by rw [State.recordingSlot_of_flying (s.flyingHeader_accept t), if_neg kind, off])

/-- R161: the slot of a STORE that is not refused is BLANK. -/
theorem State.blank_of_storeRefusal {slot : Byte} {n : SlotNum} (accepted : s.storeRefusal slot = none)
    (named : slotOfByte slot = some n) : (s.slot n).state = .blank := by
  cases state : (s.slot n).state with
  | blank => rfl
  | recording | queued | erasing | held | filled | failed =>
    simp only [State.storeRefusal, named, state] at accepted
    split at accepted <;> cases accepted

/-- R122: an ERASE header with a count of 1–8 is complete with a slot at least. -/
theorem Transaction.slots_ne_nil (complete : headerComplete t.header = true) (kind : t.kind = some .erase)
    (count : ¬((t.operands.getD 0 0x00#8).toNat = 0 ∨ 8 < (t.operands.getD 0 0x00#8).toNat)) :
    t.operands.drop 1 ≠ [] := by
  unfold Transaction.kind at kind
  unfold Transaction.operands at count ⊢
  unfold headerComplete at complete
  split at complete
  · rename_i kindByte _ _ operands header
    simp only [header, List.head?_cons, Option.bind_some, List.drop_succ_cons, List.drop_zero] at kind count ⊢
    rw [kind] at complete
    match operands, complete with
    | [], complete => cases complete
    | count' :: slots, complete =>
      rintro (none_ : slots = [])
      simp [none_] at complete count
      omega
  · cases complete

/-- R123: the judging of a complete header. -/
theorem State.EraseLaw.judgeHeader (h : s.EraseLaw) (state : s.interp.state = .header)
    (complete : headerComplete t.header = true) : (s.judgeHeader t).EraseLaw := by
  have idle : s.flyingHeader = none := State.flyingHeader_of_state (by simp [state])
  have off : s.recordingSlot = none := State.recordingSlot_of_none idle
  have refused (status : Status) (detail : Nat) : (s.refuse t status detail).EraseLaw := h.refuse idle status detail
  unfold State.judgeHeader
  simp only
  split
  · exact refused _ _
  · rename_i k kind
    cases k with
    | load | amend | post | reopen | close =>
      simp only
      split
      · exact refused _ _
      · split
        · exact refused _ _
        · exact (h.accept off (by simp [kind])).of_same rfl rfl
    | restart | setup | query => exact h.accept off (by simp [kind])
    | store =>
      simp only
      split
      · exact refused _ _
      · rename_i n accepted named
        refine h.beginStore off (State.blank_of_storeRefusal accepted named) rfl ?_
        rw [State.recordingSlot_of_store (State.flyingHeader_accept _ t) kind, named]
      · exact refused _ _
    | erase =>
      simp only
      split
      · exact refused _ _
      · rename_i count
        split
        · exact refused _ _
        · rename_i accepted
          have erased := h.acceptErase off (Transaction.slots_ne_nil complete kind count) accepted
          have off' : (s.acceptErase (t.operands.drop 1)).1.recordingSlot = none := by
            rw [State.recordingSlot, (s.quiet_acceptErase _).header, idle]
            rfl
          split
          · exact erased.accept off' (by simp [kind])
          · exact erased.accept off' (by simp [show (t.skip _).kind = t.kind from rfl, kind])
    | pause =>
      simp only
      split
      · exact refused _ _
      · rename_i u accepted
        refine (h.pauseUnit accepted).accept ?_ (by simp [kind])
        rw [State.recordingSlot, (s.quiet_pauseUnit accepted).header, idle]
        rfl
    | resume =>
      simp only
      split
      · exact refused _ _
      · rename_i u accepted
        refine (h.resumeUnit accepted).accept ?_ (by simp [kind])
        rw [State.recordingSlot, (s.quiet_resumeUnit accepted).header, idle]
        rfl

end headers

/-! ## The stream port -/

section stream

variable {s : State} {t : Transaction}

/-- An order in a page does not reach the Template Store. -/
theorem State.EraseLaw.of_order {u : State} (h : s.EraseLaw) (frame : s.OrderFrame u) (quiet : s.Quiet u) : u.EraseLaw :=
  h.of_same frame.store quiet.header

/-- R124: an order carried out or recorded. -/
theorem State.EraseLaw.carryOut (h : s.EraseLaw) (flying : s.flyingHeader = some t.header) (o : OrderCode)
    (operands : List Byte) : (s.carryOut t o operands).state.EraseLaw := by
  unfold State.carryOut
  split
  · rename_i kind
    split
    · rename_i n named
      exact h.recordOrder (by rw [State.recordingSlot_of_store flying kind, named])
    · exact h
  · split
    · unfold State.orderRecall
      split
      · exact h
      · split
        · exact h
        · exact h.of_order (s.orderFrame_replay _ _) (s.quiet_replay _ _)
        · exact h
    · exact h.of_order (s.orderFrame_pageOrder _ _ _ _ _) (s.quiet_pageOrder _ _ _ _ _)
  · exact h

/-- R124, R125, R127: what an order came to. -/
theorem State.EraseLaw.settleOrder {o : OrderOutcome} (h : o.state.EraseLaw)
    (flying : o.state.flyingHeader = some t.header) : (State.settleOrder t o).EraseLaw := by
  cases o with
  | done u => exact State.EraseLaw.of_same h rfl (u.quiet_clearOrder).header
  | skipped u =>
    exact State.EraseLaw.of_same h rfl (u.quiet_skipOrder.trans (State.quiet_clearOrder _)).header
  | failed status u => exact State.EraseLaw.abort h flying _ _ _

theorem State.EraseLaw.takeOrderCode (h : s.EraseLaw) (state : s.interp.state = .orders) (txn : s.interp.txn = some t)
    (b : Byte) : (s.takeOrderCode t b).EraseLaw := by
  have flying : s.flyingHeader = some t.header := State.flyingHeader_of_orders state txn
  unfold State.takeOrderCode
  split
  · exact h.reachEnd flying
  · split
    · exact (h.abort flying _ _ _).interp (State.flyingHeader_closeTransaction _ _ _) nofun
    · simp only
      split
      · split
        · exact h.of_same rfl (State.Quiet.header (State.quiet_record state txn (by rfl)))
        · exact h.abort (t := { t with index := nextIndex t.index }) flying _ _ _
      · exact h.abort (t := { t with index := nextIndex t.index }) flying _ _ _

theorem State.EraseLaw.takeOperand (h : s.EraseLaw) (state : s.interp.state = .orders) (txn : s.interp.txn = some t)
    (b : Byte) : (s.takeOperand t b).EraseLaw := by
  have flying : s.flyingHeader = some t.header := State.flyingHeader_of_orders state txn
  have reading : s.Quiet { s with interp.txn := some { t with order := t.order ++ [b] } } :=
    State.quiet_record state txn rfl
  have read : State.EraseLaw { s with interp.txn := some { t with order := t.order ++ [b] } } :=
    h.of_same rfl reading.header
  have flying' := reading.header.trans flying
  unfold State.takeOperand
  simp only
  split
  · exact h
  · split
    · exact read
    · exact h.abort (t := { t with order := t.order ++ [b] }) flying _ _ _
    · exact State.EraseLaw.settleOrder (t := { t with order := t.order ++ [b] }) (read.carryOut flying' _ _)
        ((State.quiet_carryOut _ _ _ _).header.trans flying')

/-- R121 to R128: a byte that the interpreter takes. -/
theorem State.EraseLaw.interpretByte (h : s.EraseLaw) (b : Byte) : (s.interpretByte b).EraseLaw := by
  unfold State.interpretByte
  split
  case h_1 state =>
    split
    · exact h.interp (State.flyingHeader_of_state (by simp [state])) nofun
    · exact h
  case h_2 state =>
    have idle : s.flyingHeader = none := State.flyingHeader_of_state (by simp [state])
    split
    · exact h.interp (r := s.interp.txn) idle nofun
    · split
      · exact h.interp idle nofun
      · exact h
  case h_3 t state _ =>
    unfold State.takeHeaderByte
    simp only
    split
    · exact h.judgeHeader state ‹_›
    · exact h.interp (i := s.interp.state) (State.flyingHeader_of_state (by simp [state])) (by simp [state])
  case h_4 state txn =>
    split
    · exact h.takeOrderCode state txn b
    · exact h.takeOperand state txn b
  case h_5 => exact h
  case h_6 => exact h

theorem State.EraseLaw.takeStream (h : s.EraseLaw) (bytes : List Byte) : (s.takeStream bytes).EraseLaw := by
  induction bytes generalizing s with
  | nil => exact h
  | cons b bs ih =>
    rw [State.takeStream_cons]
    refine ih ?_
    unfold State.takeStreamByte
    split
    · exact h
    · exact h.interpretByte b

end stream

/-! ## Expiries, resets and the passing of time -/

section others

variable {s : State}

theorem State.EraseLaw.takeInput (h : s.EraseLaw) (codes : List Byte) : (s.takeInput codes).EraseLaw :=
  h.of_same (s.takeInput_store codes) (s.keyed_takeInput codes).header

theorem State.EraseLaw.takeReportByte (h : s.EraseLaw) : s.takeReportByte.EraseLaw :=
  h.of_same s.takeReportByte_store s.flyingHeader_takeReportByte

theorem State.EraseLaw.expireReply (h : s.EraseLaw) (p : PageNum) : (s.expireReply p).EraseLaw := by
  refine h.of_same (s.expireReply_store p) (State.flyingHeader_congr ?_)
  unfold State.expireReply State.returnToHead
  split
  · exact State.promote_interp _
  · rfl

theorem State.EraseLaw.expireConfirm (h : s.EraseLaw) : s.expireConfirm.EraseLaw :=
  h.of_same s.expireConfirm_store s.quiet_expireConfirm.header

/-- One ms: the gathering window runs down. -/
theorem State.EraseLaw.tick (h : s.EraseLaw) : s.tick.EraseLaw := by
  have header : s.tick.flyingHeader = s.flyingHeader := s.quiet_tick.header
  have store : s.tick.store = { s.store with unit := { s.store.unit with window := s.store.unit.window.map (· - 1) } } := by
    rw [s.tick_frame]
  rw [State.eraseLaw_iff] at h ⊢
  obtain ⟨unit, queued, slots⟩ := h
  simp only [State.SomeQueued, State.recordingSlot, State.slot, store, header]
  exact ⟨⟨unit.batch, unit.idle, unit.gathering, by simpa using unit.window, unit.working, unit.attempts, unit.result⟩,
    queued, fun n => (slots n).congr rfl rfl .rfl .rfl⟩

theorem State.EraseLaw.expire (h : s.EraseLaw) (d : Due) : (s.expire d).EraseLaw := by
  cases d with
  | reply p => exact h.expireReply p
  | confirm => exact h.expireConfirm
  | gathering => exact h.endGathering

/-- With no command waiting a step is an expiry or one ms that passes (log entry 6). -/
theorem State.eraseLaw_idle (h : s.EraseLaw) : s.idle.EraseLaw := by
  unfold State.idle
  split
  · exact h.tick
  · exact h.expire _
  · have counted : State.EraseLaw { s with choices := s.choices + 1 } := h.of_same rfl rfl
    exact counted.expire _

theorem State.returnSending_store (s : State) : s.returnSending.store = s.store := by
  obtain ⟨pages, frame, -⟩ := s.returnSending_eq
  rw [frame]
  exact State.promote_store _

/-- R157: the slot of a STORE that is cut short fails. -/
theorem State.streamEmptied_store (s : State) : s.streamEmptied.store = (s.settleRecording .failed).store := by
  have cut : s.streamEmptied.store = s.cutShort.store :=
    (State.handFreedTimes_store _ _).trans (State.returnSending_store _)
  rw [cut, State.cutShort]
  simp only
  cases flying : s.inFlightTxn with
  | some t => exact State.abortEffects_store (by rw [State.flyingHeader, flying, Option.map_some])
  | none =>
    have off : s.recordingSlot = none := State.recordingSlot_of_none (by rw [State.flyingHeader, flying, Option.map_none])
    rw [State.settleRecording, off]

/-- R143, R157: the stream reset. -/
theorem State.EraseLaw.streamReset (h : s.EraseLaw) : s.streamEmptied.endCutShort.EraseLaw := by
  unfold State.endCutShort
  split
  · exact h.settleRecording (.inr rfl) ((State.closeTransaction_store _ _ _).trans s.streamEmptied_store)
      (State.flyingHeader_closeTransaction _ _ _)
  · exact h.settleRecording (.inr rfl) s.streamEmptied_store (State.flyingHeader_of_noTxn rfl)

/-- R174: a settled slot is in a kept state. -/
theorem Slot.settled_kept (x : Slot) : x.settled.state = .blank ∨ x.settled.state = .filled ∨ x.settled.state = .failed := by
  rw [Slot.settled_eq]
  rcases x with ⟨_ | _ | _ | _ | (_ | _ | _) | _ | _, -, -, -⟩ <;> simp

/-- R174: the reset line. -/
theorem State.EraseLaw.lineReset (h : s.EraseLaw) : s.lineReset.EraseLaw := by
  have unit : s.lineReset.store.unit = .idle := rfl
  have off : s.lineReset.recordingSlot = none := State.recordingSlot_of_none rfl
  refine State.eraseLaw_iff.2 ⟨?_, by simp [unit, EraseUnit.idle], fun n => ?_⟩
  · rw [unit]
    constructor <;> simp [EraseUnit.idle]
  · have used := h.used n
    have same : (s.slot n).settled.used = (s.slot n).used ∧ (s.slot n).settled.content = (s.slot n).content := by
      rw [Slot.settled_eq]
      exact ⟨rfl, rfl⟩
    rw [unit, off, State.slot_lineReset]
    rw [← same.1, ← same.2] at used
    rcases (s.slot n).settled_kept with e | e | e <;>
      exact ⟨by simp [e, SlotState.inEraseWork], by simp [e, EraseUnit.idle], by simp [e, EraseUnit.idle],
        by simp [EraseUnit.idle], used, by simp [e]⟩

/-! ## Every step -/

/-- Whatever a command does, it keeps the law of slots and erase unit. -/
theorem State.EraseLaw.exec {c : Instr} {t : State} (h : s.EraseLaw) (run : exec c s = .next t) : t.EraseLaw := by
  by_cases stream : onStreamPort c = true
  · obtain ⟨bytes, e⟩ := exec_of_onStreamPort stream s
    cases e.symm.trans run
    exact h.takeStream bytes
  · cases key : keyCode c with
    | some b =>
      cases (exec_of_keyCode key s).symm.trans run
      exact h.takeInput [b]
    | none =>
      cases c with
      | resetLine => cases run; exact h.lineReset
      | streamReset => cases run; exact h.streamReset
      | reportByteTaken => cases run; exact h.takeReportByte
      | scanFrame length characters => cases run; exact h.takeInput _
      | scanAnswerByteTaken =>
        cases run
        unfold State.takeAnswerByte
        split <;> exact h.of_same rfl rfl
      | rowRequest row => cases run; exact h.of_same rfl rfl
      | cursorRequest => cases run; exact h.of_same rfl rfl
      | replyTimerExpiry p => cases run; exact h.expireReply p
      | confirmWindowExpiry => cases run; exact h.expireConfirm
      | gatheringWindowExpiry => cases run; exact h.endGathering
      | attemptEnd ending => cases run; exact h.endAttempt ending
      | attemptStopped ending => cases run; exact h.endAttempt ending
      | _ => simp [onStreamPort, keyCode] at stream key

end others

/-- Settles O10: the law is kept at the end of each attempt, by each header and each order, and at each end of a STORE; no
other part of a step reaches the Template Store. -/
theorem stepKeepsEraseLaw : Obligations.StepKeepsEraseLaw := by
  intro s t law run
  unfold step at run
  split at run
  · cases run
    exact State.eraseLaw_idle law
  · rename_i rest _
    have taken : State.EraseLaw { s with pending := rest } := law.of_same rfl rfl
    exact taken.exec run

end Sys2Proof.Machine

/-! # Headers of the Template Store: STORE, PAUSE and RESUME -/

namespace Sys2Proof.Machine

section headers

variable {s u : State} {page tag slot : Byte} {label : List Byte} {n : SlotNum} {status : Status}

/-! ## STORE -/

/-- R167: the array counts as busy in ERASING and PAUSING. -/
theorem State.arrayBusy_iff :
    s.arrayBusy = true ↔ s.store.unit.state = .erasing ∨ s.store.unit.state = .pausing := by
  simp [State.arrayBusy]

theorem State.storeRefusal_busy (busy : s.store.unit.state = .erasing ∨ s.store.unit.state = .pausing) :
    s.storeRefusal slot = some .busy := if_pos (State.arrayBusy_iff.2 busy)

theorem State.storeRefusal_badSlot (free : ¬(s.store.unit.state = .erasing ∨ s.store.unit.state = .pausing))
    (above : 23 < slot.toNat) : s.storeRefusal slot = some .badSlot := by
  rw [State.storeRefusal, if_neg (mt State.arrayBusy_iff.1 free), Option.isNone_iff_eq_none.1 (slotOfByte_isNone.2 above)]

/-- R161: what the state of the slot makes of a STORE. -/
theorem SlotState.storeRefusal {x : SlotState} (free : ¬(s.store.unit.state = .erasing ∨ s.store.unit.state = .pausing))
    (state : (s.slot n).state = x) :
    (x = .recording ∨ x.inEraseWork = true → s.storeRefusal (byteOf n.val) = some .slotBusy) ∧
    (x = .filled ∨ x = .failed → s.storeRefusal (byteOf n.val) = some .notBlank) ∧
    (x = .blank → s.storeRefusal (byteOf n.val) = none) := by
  rw [State.storeRefusal, if_neg (mt State.arrayBusy_iff.1 free), slotOfByte_byteOf]
  cases x <;> simp [state, SlotState.inEraseWork]

/-- R122: a STORE header is judged with its last byte. -/
theorem State.takeStream_store (due : s.headerDue) (length : label.length = 8) :
    s.takeStream (Kind.store.code :: page :: tag :: slot :: label) =
      (s.withTxn (.ofHeader (Kind.store.code :: page :: tag :: slot :: label).dropLast)).judgeHeader
        (.ofHeader (Kind.store.code :: page :: tag :: slot :: label)) :=
  State.takeStream_fixedHeader (operands := slot :: label) due nofun (by simp [length, headerOperands])

/-- R161: a STORE header that is refused, with its slot byte as detail. -/
theorem State.refusedTo_store (due : s.headerDue) (length : label.length = 8) (refused : s.storeRefusal slot = some status) :
    s.refusedTo (s.takeStream (Kind.store.code :: page :: tag :: slot :: label)) tag status slot.toNat := by
  have refused' (x : Transaction) : (s.withTxn x).storeRefusal
      ((Transaction.ofHeader (Kind.store.code :: page :: tag :: slot :: label)).operands.getD 0 0x00#8) = some status :=
    refused
  rw [State.takeStream_store due length]
  simp only [State.judgeHeader, Transaction.kind_ofHeader, refused']
  exact State.refusedTo_refuse s _ _ status slot.toNat

/-- R161: a STORE header that is accepted. -/
theorem State.takeStream_store_accepted (due : s.headerDue) (length : label.length = 8)
    (accepted : s.storeRefusal slot = none) (named : slotOfByte slot = some n) :
    s.takeStream (Kind.store.code :: page :: tag :: slot :: label) =
      (s.beginStore n label).accept (.ofHeader (Kind.store.code :: page :: tag :: slot :: label)) := by
  have slot' : (Transaction.ofHeader (Kind.store.code :: page :: tag :: slot :: label)).operands.getD 0 0x00#8 = slot := rfl
  have accepted' (x : Transaction) : (s.withTxn x).storeRefusal slot = none := accepted
  rw [State.takeStream_store due length]
  simp only [State.judgeHeader, Transaction.kind_ofHeader, slot', accepted', named]
  rfl

/-! ## PAUSE and RESUME -/

theorem State.judgeHeader_pause {t : Transaction} (kind : t.kind = some .pause) :
    s.judgeHeader t = s.pauseUnit.elim (s.refuse t .state 0) (·.accept t) := by
  simp only [State.judgeHeader, kind]
  cases s.pauseUnit <;> rfl

theorem State.judgeHeader_resume {t : Transaction} (kind : t.kind = some .resume) :
    s.judgeHeader t = s.resumeUnit.elim (s.refuse t .state 0) (·.accept t) := by
  simp only [State.judgeHeader, kind]
  cases s.resumeUnit <;> rfl

/-- R171: PAUSE does not look at the record. -/
theorem State.pauseUnit_withTxn (s : State) (t : Transaction) :
    (s.withTxn t).pauseUnit = s.pauseUnit.map (·.withTxn t) := by
  simp only [State.pauseUnit, show (s.withTxn t).store = s.store from rfl]
  cases s.store.unit.state <;> rfl

/-- R173: nor does RESUME. -/
theorem State.resumeUnit_withTxn (s : State) (t : Transaction) :
    (s.withTxn t).resumeUnit = s.resumeUnit.map (·.withTxn t) := by
  simp only [State.resumeUnit, show (s.withTxn t).store = s.store from rfl,
    show (s.withTxn t).lowestQueued = s.lowestQueued from rfl]
  cases s.store.unit.state with
  | paused => cases s.store.unit.work <;> cases s.lowestQueued <;> rfl
  | idle | gathering | erasing | pausing => rfl

/-- R171: PAUSE, state by state. -/
theorem State.pauseUnit_cases (s : State) :
    (s.store.unit.state = .idle → s.pauseUnit = none) ∧
    (s.store.unit.state = .gathering → s.pauseUnit = some { s with
      store.unit := { s.store.unit with state := .paused, window := none, work := none } }) ∧
    (s.store.unit.state = .erasing → s.pauseUnit = some { s with store.unit.state := .pausing }) ∧
    (s.store.unit.state = .pausing ∨ s.store.unit.state = .paused → s.pauseUnit = some s) := by
  unfold State.pauseUnit
  cases s.store.unit.state <;> simp

/-- R173: RESUME goes on with the slot in work, or starts the lowest-numbered QUEUED slot. -/
theorem State.resumeUnit_cases (s : State) :
    (s.store.unit.state ≠ .paused → s.resumeUnit = none) ∧
    (s.store.unit.state = .paused → ∀ n, s.store.unit.work = some n →
      s.resumeUnit = some ({ s with store.unit.state := .erasing }.updSlot n (·.become .erasing))) ∧
    (s.store.unit.state = .paused → s.store.unit.work = none → ∀ n, s.lowestQueued = some n →
      s.resumeUnit = some (s.startSlot n)) := by
  unfold State.resumeUnit
  refine ⟨fun other => ?_, fun paused n work => ?_, fun paused work n lowest => ?_⟩
  · cases state : s.store.unit.state <;> simp_all
  · simp only [paused, work]
  · simp only [paused, work, lowest]

/-- R122, R171, R173: a header without operands that acts on the erase unit is refused STATE, or accepted with the unit
changed. -/
theorem State.takeStream_unit {k : Kind} {act : State → Option State} (due : s.headerDue) (fixed : k ≠ .erase)
    (bare : headerOperands k = 0)
    (judged : ∀ (v : State) (t : Transaction), t.kind = some k →
      v.judgeHeader t = (act v).elim (v.refuse t .state 0) (·.accept t))
    (aside : ∀ t, act (s.withTxn t) = (act s).map (·.withTxn t)) :
    (act s = none → s.refusedTo (s.takeStream [k.code, page, tag]) tag .state 0) ∧
    ∀ u, act s = some u → s.takeStream [k.code, page, tag] = u.accept (.ofHeader [k.code, page, tag]) := by
  rw [State.takeStream_fixedHeader (operands := []) due fixed bare.symm, judged _ _ (Transaction.kind_ofHeader _), aside]
  refine ⟨fun refused => ?_, fun u accepted => ?_⟩
  · rw [refused]
    exact State.refusedTo_refuse s _ _ .state 0
  · rw [accepted]
    rfl

end headers

/-- Settles O21: the array, the slot byte and the slot's state are checked in turn, and a BLANK slot begins RECORDING. -/
theorem storeHeaderChecks : Obligations.StoreHeaderChecks := by
  intro s page tag slot label due length busy
  refine ⟨fun working => ⟨_, rfl, State.refusedTo_store due length (State.storeRefusal_busy working)⟩,
    fun free above => ⟨_, rfl, State.refusedTo_store due length (State.storeRefusal_badSlot free above)⟩, ?_⟩
  rintro n rfl free
  obtain ⟨slotBusy, notBlank, blank⟩ := SlotState.storeRefusal free (rfl : (s.slot n).state = _)
  exact ⟨fun state => ⟨_, rfl, State.refusedTo_store due length (slotBusy state)⟩,
    fun state => ⟨_, rfl, State.refusedTo_store due length (notBlank state)⟩,
    fun state => congrArg Host.Outcome.next
      (State.takeStream_store_accepted due length (blank state) (slotOfByte_byteOf n))⟩

/-- Settles O23: what PAUSE and RESUME make of the unit, state by state. -/
theorem pauseAndResumeHeaders : Obligations.PauseAndResumeHeaders := by
  intro s page tag due held pause resume
  obtain ⟨pauseRefused, paused⟩ := State.takeStream_unit (k := .pause) (page := page) (tag := tag) due nofun rfl
    (fun _ _ => State.judgeHeader_pause) s.pauseUnit_withTxn
  obtain ⟨resumeRefused, resumed⟩ := State.takeStream_unit (k := .resume) (page := page) (tag := tag) due nofun rfl
    (fun _ _ => State.judgeHeader_resume) s.resumeUnit_withTxn
  obtain ⟨idle, gathering, erasing, rests⟩ := s.pauseUnit_cases
  obtain ⟨off, goesOn, starts⟩ := s.resumeUnit_cases
  have accepted {c : Instr} {u v : State} (h : exec c s = .next u) (same : u = v) : exec c s = .next v := same ▸ h
  refine ⟨fun e => ⟨_, rfl, pauseRefused (idle e)⟩, fun e => accepted rfl (paused _ (gathering e)),
    fun e => accepted rfl (paused _ (erasing e)), fun e => accepted rfl (paused s (rests e)),
    fun e => ⟨_, rfl, resumeRefused (off e)⟩, fun e n work => accepted rfl (resumed _ (goesOn e n work)),
    fun e work n k queued before =>
      accepted rfl (resumed _ (starts e work n (State.lowestQueued_eq_some ⟨k, queued⟩ before)))⟩

end Sys2Proof.Machine

/-! # Orders recorded in a template

An order that a template can hold is read whole from its bytes, in a LOAD as in a STORE (R124, R162). -/

namespace Sys2Proof.Machine

/-- The command delivers the bytes of an order that a template can hold, each of them needed and none missing (R124). -/
structure SendsOrder (c : Instr) (o : OrderCode) (operands : List Byte) : Prop where
  sent : ∀ s, exec c s = .next (s.takeStream (o.code :: operands))
  stored : o.allowedIn .store = true
  loaded : o.allowedIn .load = true
  read : (∀ n, 1 ≤ n → n < operands.length → operandsRead o (operands.take n) = .more) ∧ operandsRead o operands = .complete
  some_ : operands ≠ []

/-- R124: an order with n operand bytes. -/
theorem SendsOrder.fixed {c : Instr} {o : OrderCode} {operands : List Byte} (n : Nat)
    (read : ∀ l, operandsRead o l = if n ≤ l.length then .complete else .more) (length : operands.length = n)
    (sent : ∀ s, exec c s = .next (s.takeStream (o.code :: operands)))
    (allowed : o.allowedIn .store = true ∧ o.allowedIn .load = true) (some_ : operands ≠ []) : SendsOrder c o operands :=
  ⟨sent, allowed.1, allowed.2, operandsRead_fixed read length, some_⟩

/-- R162: the form that a STORE asks of an order's operands. -/
structure WellFormedOrder (c : Instr) : Prop where
  position : ∀ row column : Byte, c = .setpos row column ∨ c = .cursor row column → row.toNat ≤ 23 ∧ column.toNat ≤ 79
  count : ∀ (b : Byte) (count : BitVec 16), c = .repeatChar b count ∨ c = .clear count →
    1 ≤ count.toNat ∧ count.toNat ≤ 1920
  define : ∀ d : DefineOperands, c = .define d → fieldOf d 0 ≠ none
  chain : ∀ (id action count follow m : Byte) (members : List Byte), c = .chain id action count follow m members →
    id.toNat ≤ 3 ∧ action.toNat ≤ 2 ∧ 1 ≤ count.toNat
  select : ∀ id : Byte, c = .select id → id.toNat ≤ 3 ∨ id = 0xFF#8

/-- R117: a CHAIN with operands in their ranges is well formed. -/
theorem chainOf_isSome {id action count follow m : Byte} {members : List Byte} (named : id.toNat ≤ 3)
    (known : action.toNat ≤ 2) (counted : 1 ≤ count.toNat) (least : 1 ≤ m.toNat) (most : m.toNat ≤ 16)
    (length : members.length = m.toNat) : (chainOf (id :: action :: count :: follow :: m :: members)).isSome = true := by
  obtain ⟨c, chain⟩ := Option.ne_none_iff_exists'.1 (mt chainOfByte_eq_none.1 (Nat.not_lt.2 named))
  obtain ⟨a, action'⟩ := Option.ne_none_iff_exists'.1 (mt actionOfByte_eq_none.1 (Nat.not_lt.2 known))
  simp only [chainOf, chain, action']
  rw [if_neg (by omega)]
  rfl

/-- R124, R162: the order whose bytes a template holds is sent whole by its command, and keeps the form if the command
does. -/
theorem sendsOrder_of_orderBytes {c : Instr} {bytes : List Byte} (h : orderBytes c = some bytes) :
    ∃ o operands, bytes = o.code :: operands ∧ SendsOrder c o operands ∧
      (WellFormedOrder c → formFailure o operands = none) := by
  cases c with
  | setpos row column =>
    cases h
    refine ⟨.setpos, [row, column], rfl, .fixed 2 (fun _ => rfl) rfl (fun _ => rfl) ⟨rfl, rfl⟩ nofun, fun form => ?_⟩
    obtain ⟨rows, columns⟩ := form.position row column (.inl rfl)
    simp [formFailure, positionOf_eq rows columns]
  | cursor row column =>
    cases h
    refine ⟨.cursor, [row, column], rfl, .fixed 2 (fun _ => rfl) rfl (fun _ => rfl) ⟨rfl, rfl⟩ nofun, fun form => ?_⟩
    obtain ⟨rows, columns⟩ := form.position row column (.inr rfl)
    simp [formFailure, positionOf_eq rows columns]
  | repeatChar b count =>
    cases h
    refine ⟨.repeatChar, [b, count.extractLsb' 8 8, count.extractLsb' 0 8], rfl,
      .fixed 3 (fun _ => rfl) rfl (fun _ => rfl) ⟨rfl, rfl⟩ nofun, fun form => ?_⟩
    have range := form.count b count (.inl rfl)
    simp [formFailure, countOf_extractLsb', range]
  | clear count =>
    cases h
    refine ⟨.clear, [count.extractLsb' 8 8, count.extractLsb' 0 8], rfl,
      .fixed 2 (fun _ => rfl) rfl (fun _ => rfl) ⟨rfl, rfl⟩ nofun, fun form => ?_⟩
    have range := form.count 0x00#8 count (.inr rfl)
    simp [formFailure, countOf_extractLsb', range]
  | define d =>
    cases h
    refine ⟨.define, defineBytes d, rfl, .fixed 15 (fun _ => rfl) rfl (fun _ => rfl) ⟨rfl, rfl⟩ nofun, fun form => ?_⟩
    simp [formFailure, defineOf_defineBytes, Option.isSome_iff_ne_none.2 (form.define d rfl)]
  | select id =>
    cases h
    refine ⟨.select, [id], rfl, .fixed 1 (fun _ => rfl) rfl (fun _ => rfl) ⟨rfl, rfl⟩ nofun, fun form => ?_⟩
    rcases form.select id rfl with named | rfl
    · have chain := Option.isSome_iff_ne_none.2 (mt chainOfByte_eq_none.1 (Nat.not_lt.2 named))
      simp [formFailure, chain]
    · rfl
  | text n bytes =>
    obtain ⟨⟨some_, length⟩, ⟨⟩⟩ := Option.ite_none_right_eq_some.1 h
    exact ⟨.text, n :: bytes, rfl, ⟨fun _ => rfl, rfl, rfl, operandsRead_counted (operandsRead_text some_) length, nofun⟩,
      fun _ => rfl⟩
  | message n bytes =>
    obtain ⟨⟨most, length⟩, ⟨⟩⟩ := Option.ite_none_right_eq_some.1 h
    exact ⟨.message, n :: bytes, rfl,
      ⟨fun _ => rfl, rfl, rfl, operandsRead_counted (operandsRead_message most) length, nofun⟩, fun _ => rfl⟩
  | chain id action count follow m members =>
    obtain ⟨⟨least, most, length⟩, ⟨⟩⟩ := Option.ite_none_right_eq_some.1 h
    refine ⟨.chain, id :: action :: count :: follow :: m :: members, rfl,
      ⟨fun _ => rfl, rfl, rfl, operandsRead_chain least most length, nofun⟩, fun form => ?_⟩
    obtain ⟨named, known, counted⟩ := form.chain id action count follow m members rfl
    simp [formFailure, chainOf_isSome named known counted least most length]
  | _ => cases h

/-! ## STORE -/

section recording

variable {s : State} {t : Transaction} {n : SlotNum} {o : OrderCode} {operands : List Byte}

/-- R162: the order of a STORE is recorded in its slot. -/
theorem State.carryOut_store (v : State) (kind : t.kind = some .store)
    (named : slotOfByte (t.operands.getD 0 0x00#8) = some n) :
    v.carryOut (t.reading o operands) o operands = v.recordOrder n o operands := by
  have kind' : (t.reading o operands).kind = some .store := kind
  have named' : slotOfByte ((t.reading o operands).operands.getD 0 0x00#8) = some n := named
  simp only [State.carryOut, kind', named']

/-- R162: an order that keeps the form is appended as received while there is room for it. -/
theorem State.recordOrder_of_room (well : formFailure o operands = none)
    (room : (s.slot n).used + (o.code :: operands).length ≤ 3072) :
    s.recordOrder n o operands = .done (s.updSlot n fun x =>
      { x with content := x.content ++ [o.code :: operands], used := x.used + (o.code :: operands).length }) := by
  simp only [State.recordOrder, well]
  exact if_neg (Nat.not_lt.2 room)

/-- R163: an order for which there is no room fails. -/
theorem State.recordOrder_of_full (well : formFailure o operands = none)
    (full : 3072 < (s.slot n).used + (o.code :: operands).length) :
    s.recordOrder n o operands = .failed .storeFull s := by
  simp only [State.recordOrder, well]
  exact if_pos full

end recording

/-- Settles O34: the order is read whole and keeps the form, so the room in the slot decides. -/
theorem storeRecordsOrders : Obligations.StoreRecordsOrders := by
  intro s t n c bytes due named held position count define chain select
  obtain ⟨o, operands, rfl, ⟨sent, stored, -, read, some_⟩, form⟩ := sendsOrder_of_orderBytes held
  have well := form ⟨position, count, define, chain, select⟩
  obtain ⟨-, txn, kind, -, -⟩ := id due
  refine ⟨fun room => ?_, fun full => ?_⟩
  · rw [sent, State.takeStream_order s t .store o operands due stored read.1 read.2 some_,
      State.carryOut_store _ kind named, State.recordOrder_of_room (s := s.withTxn _) well room, ← Transaction.reading_carried due]
    rfl
  · have aborts := State.aborts_failed (c := c) due (State.nothingHeld_of_kind txn kind (by simp)) (sent s) stored read some_
      fun v _ store => by
        rw [State.carryOut_store v kind named, State.recordOrder_of_full (s := v) well (by simpa only [State.slot, store] using full)]
    have failed : s.afterAbort t .store = s.updSlot n fun x => { x with state := .failed } := by
      simp only [State.afterAbort, Transaction.page_of_kind kind rfl, if_true, named]
    rw [← failed]
    exact aborts

end Sys2Proof.Machine

/-! # RECALL

A replay carries its orders out as orders of the LOAD, with the RECALL's own bytes as the order being read (R166). No order
looks at those bytes, and none leaves a trace of them. -/

namespace Sys2Proof.Machine

/-- A state with other bytes of the order being read. -/
def State.rereading (s : State) (bytes : List Byte) : State := s.updTxn fun t => { t with order := bytes }

section rereading

variable {s : State} {t t' : Transaction} {p : PageNum} {bytes : List Byte}

/-- Two runs of orders with different bytes of the order being read. -/
theorem orderParallel_rereading (p : PageNum) (bytes : List Byte) :
    OrderParallel p fun s s' => s' = s.rereading bytes where
  pages := by
    rintro s _ rfl
    rfl
  scan := by
    rintro s _ rfl
    rfl
  writePos := by
    rintro s _ rfl
    simp [State.rereading, Function.comp_def]
  updPage := by
    rintro s _ f rfl
    rfl
  dropConfirm := by
    rintro s _ rfl
    rfl
  setWritePos := by
    rintro s _ n rfl
    simp [State.rereading, State.setWritePos, State.updTxn, Function.comp_def]
  skipOrder := by
    rintro s _ rfl
    simp [State.rereading, State.skipOrder, State.updTxn, Transaction.skip, Function.comp_def]

theorem State.abortEffects_rereading (s : State) (same : t'.header = t.header) :
    (s.rereading bytes).abortEffects t' = (s.abortEffects t).rereading bytes := by
  unfold State.abortEffects Transaction.operands
  rw [Transaction.kind_congr same, Transaction.page_congr same, same]
  split
  · rfl
  · split <;> rfl
  · rfl

theorem State.answer_rereading (s : State) (r : Report) :
    (s.rereading bytes).answer r = (s.answer r).rereading bytes := by
  unfold State.answer
  rw [show (s.rereading bytes).queueFull = s.queueFull from rfl]
  split <;> rfl

theorem State.closeTransaction_rereading (s : State) (next : InterpState) (same : t'.header = t.header) :
    (s.rereading bytes).closeTransaction t' next = s.closeTransaction t next := by
  have inhibited : (s.rereading bytes).inhibited = s.inhibited := by
    refine State.inhibited_of_marks rfl ?_ fun _ _ => rfl
    cases txn : s.interp.txn <;> simp [State.rereading, txn, Transaction.kind]
  have closed : (s.rereading bytes).closed t' next = s.closed t next := by
    unfold State.closed State.clearMark
    rw [Transaction.page_congr same]
    rfl
  rw [State.closeTransaction_closed, State.closeTransaction_closed, inhibited, closed]

/-- R127: an abort leaves no trace of the bytes of the order being read. -/
theorem State.abort_rereading (s : State) (same : t'.header = t.header) (status : Status) (detail : Nat)
    (next : InterpState) : (s.rereading bytes).abort t' status detail next = s.abort t status detail next := by
  rw [State.abort, State.abortEffects_rereading s same, State.answer_rereading,
    State.closeTransaction_rereading _ next same, Transaction.tag, same]
  rfl

/-- R124, R125, R127: nor does an order that has been carried out. -/
theorem OrderOutcome.Both.settle {a b : OrderOutcome} (both : OrderOutcome.Both (fun s s' => s' = s.rereading bytes) a b)
    (header : t'.header = t.header) (index : t'.index = t.index) :
    State.settleOrder t' b = State.settleOrder t a := by
  cases both with
  | done r =>
    subst r
    simp [State.settleOrder, State.rereading, State.updTxn, Function.comp_def]
  | skipped r =>
    subst r
    simp [State.settleOrder, State.skipOrder, State.rereading, State.updTxn, Transaction.skip, Function.comp_def]
  | failed status r =>
    subst r
    simp only [State.settleOrder, index]
    exact State.abort_rereading _ header _ _ _

end rereading

section recall_

variable {s u v : State} {t r : Transaction} {p : PageNum} {n m : SlotNum}

/-- R165: a FILLED slot is recalled while the array is not busy. -/
theorem State.recallRefusal_of_filled (filled : (s.slot n).state = .filled) (free : s.arrayBusy = false) :
    s.recallRefusal (byteOf n.val) = none := by
  simp [State.recallRefusal, slotOfByte_byteOf, filled, free]

/-- R165, R166: a RECALL as the first order of a LOAD replays the slot's orders. -/
theorem exec_recall (due : s.orderDue t .load) (page : t.page = some p) (first : t.index = 0)
    (filled : (s.slot n).state = .filled) (free : s.arrayBusy = false) :
    exec (.recall (byteOf n.val)) s = .next (State.settleOrder (t.reading .recall [byteOf n.val])
      (State.replay p (s.withTxn (t.reading .recall [byteOf n.val])) (s.slot n).content)) := by
  obtain ⟨-, -, kind, -, -⟩ := id due
  have kind' : (t.reading .recall [byteOf n.val]).kind = some .load := kind
  have page' : (t.reading .recall [byteOf n.val]).page = some p := page
  have index : (t.reading .recall [byteOf n.val]).index = 1 := by simp [Transaction.reading, first, nextIndex]
  have accepted : (s.withTxn (t.reading .recall [byteOf n.val])).recallRefusal (byteOf n.val) = none :=
    State.recallRefusal_of_filled filled free
  have read := operandsRead_fixed (o := .recall) (operands := [byteOf n.val]) (n := 1) (fun _ => rfl) rfl
  refine congrArg Host.Outcome.next ((State.takeStream_order s t .load .recall [byteOf n.val] due rfl read.1 read.2
    (List.cons_ne_nil _ _)).trans ?_)
  simp only [State.carryOut, kind', page', index, if_true, List.getD_cons_zero, State.orderRecall, ne_eq,
    not_true_eq_false, if_false, accepted, slotOfByte_byteOf]
  rfl

/-- What an order of a LOAD that has been carried out leaves: another first order is due, with the index set back. -/
theorem State.OrderFrame.orderDue {o : OrderCode} {operands : List Byte} (due : s.orderDue t .load)
    (frame : (s.withTxn (t.reading o operands)).OrderFrame v) (txn : v.interp.txn = some r) :
    (v.withTxn { r with order := [], index := 0 }).orderDue { r with order := [], index := 0 } .load ∧
      r.header = t.header ∧ r.index = nextIndex t.index ∧ v.store = s.store := by
  obtain ⟨state, -, kind, -, stalled⟩ := due
  have same := frame.txn
  simp only [txn, State.withTxn, Option.map_some, Option.some.injEq, Prod.mk.injEq] at same
  obtain ⟨header, index, -⟩ := same
  exact ⟨⟨frame.state.trans state, rfl, (Transaction.kind_congr header).trans kind, rfl, frame.stalled.trans stalled⟩,
    header, index, frame.store⟩

/-- R166: after an order of the replay that has been carried out or skipped, the rest is replayed as a RECALL would. -/
theorem State.replay_rest {o : OrderCode} {operands : List Byte} {rest : List (List Byte)} (due : s.orderDue t .load)
    (page : t.page = some p) (first : t.index = 0) (free : s.arrayBusy = false)
    (filled : (s.slot m).state = .filled) (content : (s.slot m).content = rest)
    (frame : (s.withTxn (t.reading o operands)).OrderFrame v) (txn : v.interp.txn = some r) (b : Byte) :
    Host.Outcome.next (State.settleOrder (t.reading .recall [b])
      (State.replay p (v.rereading [OrderCode.recall.code, b]) rest)) =
      exec (.recall (byteOf m.val)) (v.withTxn { r with order := [], index := 0 }) := by
  obtain ⟨due', header, index, store⟩ := frame.orderDue due txn
  have slot : (v.withTxn { r with order := [], index := 0 }).slot m = s.slot m := by
    simp only [State.slot, State.withTxn, store]
  have free' : (v.withTxn { r with order := [], index := 0 }).arrayBusy = false := by
    simpa only [State.arrayBusy, State.withTxn, store] using free
  rw [exec_recall (n := m) (p := p) due' ((Transaction.page_congr header).trans page) rfl (by rw [slot, filled]) free', slot,
    content]
  have resumed : (v.withTxn { r with order := [], index := 0 }).withTxn
      (Transaction.reading { r with order := [], index := 0 } .recall [byteOf m.val]) =
        (v.rereading [OrderCode.recall.code, b]).rereading [OrderCode.recall.code, byteOf m.val] := by
    simp [State.rereading, State.updTxn, State.withTxn, txn, Transaction.reading, index, first]
  rw [resumed]
  refine congrArg Host.Outcome.next (Eq.symm (OrderOutcome.Both.settle
    ((orderParallel_rereading p [OrderCode.recall.code, byteOf m.val]).replay rfl rest) header ?_))
  simp [Transaction.reading, first]

/-- R166: the same with the bytes of the order dropped, as they are after an order sent by itself; and the LOAD is then in
flight. -/
theorem State.replay_rest_carried {o : OrderCode} {operands : List Byte} {rest : List (List Byte)} (due : s.orderDue t .load)
    (page : t.page = some p) (first : t.index = 0) (free : s.arrayBusy = false)
    (filled : (s.slot m).state = .filled) (content : (s.slot m).content = rest)
    (frame : (s.withTxn (t.reading o operands)).OrderFrame v) (b : Byte)
    (carried : u = v.updTxn fun r => { r with order := [] }) :
    (∀ r, u.interp.txn = some r →
      Host.Outcome.next (State.settleOrder (t.reading .recall [b])
        (State.replay p (v.rereading [OrderCode.recall.code, b]) rest)) =
        exec (.recall (byteOf m.val)) (u.withTxn { r with index := 0 })) ∧ u.interp.txn ≠ none := by
  subst u
  obtain ⟨r, txn, -⟩ := Option.map_eq_some_iff.mp frame.txn
  refine ⟨fun r' txn' => ?_, by simp [txn]⟩
  obtain rfl : { r with order := [] } = r' := by simpa [txn] using txn'
  exact State.replay_rest due page first free filled content frame txn b

theorem State.txn_closed (s : State) (t : Transaction) (next : InterpState) : (s.closed t next).interp.txn = none := by
  obtain ⟨_, closed⟩ := s.closed_frame t next
  rw [closed]

theorem State.txn_abort (s : State) (t : Transaction) (status : Status) (detail : Nat) (next : InterpState) :
    (s.abort t status detail next).interp.txn = none := by
  rw [State.abort, State.closeTransaction_closed]
  split
  · rw [State.txn_releaseInput, State.txn_closed]
  · exact State.txn_closed _ _ _

end recall_

/-- Settles O33: the first order of the replay does what it does sent by itself; after it a RECALL of the rest is due, or the
LOAD has been aborted. -/
theorem recallReplaysTheTemplate : Obligations.RecallReplaysTheTemplate := by
  intro s t p n due page first filled erasing pausing
  have free : s.arrayBusy = false := by simp [State.arrayBusy, erasing, pausing]
  refine ⟨fun empty => ?_, fun c bytes rest m u held content filled' content' run => ?_⟩
  · rw [exec_recall due page first filled free, empty, ← Transaction.reading_carried due]
    rfl
  · obtain ⟨o, operands, rfl, ⟨sent, stored, loaded, read, some_⟩, -⟩ := sendsOrder_of_orderBytes held
    have order : o ≠ .recall := by
      rintro rfl
      cases stored
    have taken := State.takeStream_pageOrder_of_read due page loaded nofun order read.1 read.2 some_
    rw [sent, taken] at run
    have frame := (s.withTxn (t.reading o operands)).orderFrame_pageOrder p .load t.writePos o operands
    have reread : s.withTxn (t.reading .recall [byteOf n.val]) =
      (s.withTxn (t.reading o operands)).rereading [OrderCode.recall.code, byteOf n.val] := rfl
    have both := (orderParallel_rereading p [OrderCode.recall.code, byteOf n.val]).pageOrder
      (s := s.withTxn (t.reading o operands)) rfl .load t.writePos o operands
    rw [exec_recall due page first filled free, content, State.replay_cons (orderOfByte_code o) rfl, reread,
      show (t.reading .recall [byteOf n.val]).writePos = t.writePos from rfl]
    generalize (s.withTxn (t.reading o operands)).pageOrder .load p t.writePos o operands = a at run frame both
    generalize ((s.withTxn (t.reading o operands)).rereading [OrderCode.recall.code, byteOf n.val]).pageOrder .load p
      t.writePos o operands = b at both
    cases both with
    | @done v _ r =>
      subst r
      obtain ⟨rest_, inFlight⟩ := State.replay_rest_carried due page first free filled' content' frame (byteOf n.val)
        (Host.Outcome.next.inj run).symm
      exact ⟨rest_, fun none_ => absurd none_ inFlight⟩
    | @skipped v _ r =>
      subst r
      have skipFrame : (s.withTxn (t.reading o operands)).OrderFrame v.skipOrder := frame.updTxn fun _ => rfl
      obtain ⟨rest_, inFlight⟩ := State.replay_rest_carried due page first free filled' content'
        skipFrame (byteOf n.val) (Host.Outcome.next.inj run).symm
      simp only [(orderParallel_rereading p [OrderCode.recall.code, byteOf n.val]).skipOrder (s := v) rfl]
      exact ⟨rest_, fun none_ => absurd none_ inFlight⟩
    | @failed v _ status r =>
      have aborted := OrderOutcome.Both.settle (.failed status r) (t := t.reading o operands)
        (t' := t.reading .recall [byteOf n.val]) rfl rfl
      obtain rfl := Host.Outcome.next.inj run
      exact ⟨fun r txn => by simp [State.settleOrder, State.txn_abort] at txn,
        fun _ => congrArg Host.Outcome.next aborted⟩

end Sys2Proof.Machine
